-- ==== Sys2Proof/Word.lean ====
section
/-! DEFINITION. The words of the CORE and the closed name sets its operations use. -/

namespace Sys2Proof

/-- A byte: 8 bits, unsigned (40_wire_codec.md R140). -/
abbrev Byte := BitVec 8

/-- A locomotive address: 14 bits (00_scope.md R9, `LOCO_AW`). -/
abbrev LocoAddr := BitVec 14

/-- A bus device address: 5 bits, 1..31 name devices, 0 names none (20_memory.md R72). -/
abbrev DevAddr := BitVec 5

/-- The bytes of a Message in wire order: call byte, header, data, checksum (30_encoding.md R100).
The length is explicit: it is the list's length. -/
abbrev Message := List Byte

/-- The four roles (10_state.md R28). -/
inductive Role where
  | idle
  | master
  | slaveInit
  | slave
deriving DecidableEq, Repr

/-- The five power states (10_state.md R45). -/
inductive Power where
  | normal
  | estop
  | off
  | short
  | service
deriving DecidableEq, Repr

/-- The four speed-step variants (10_state.md R26). -/
inductive Steps where
  | s14
  | s27
  | s28
  | s128
deriving DecidableEq, Repr

/-- The five locomotive function groups (30_encoding.md R112). -/
inductive FuncGroup where
  | g1
  | g2
  | g3
  | g4
  | g5
deriving DecidableEq, Repr

/-- The four classes of a call byte (30_encoding.md R105). -/
inductive CbClass where
  | poll
  | ackreq
  | msg
  | reserved
deriving DecidableEq, Repr

/-- The two rings (41_ring_buffers.md). -/
inductive RingId where
  | rx
  | tx
deriving DecidableEq, Repr

/-- One host command at the host command port (30_encoding.md R125). -/
structure HostCmd where
  op : BitVec 5
  arg0 : BitVec 16
  arg1 : BitVec 8
  arg2 : BitVec 18
deriving DecidableEq, Repr

/-- One event at an input port: `rx_valid`, `tx_ready`, `cmd_valid` (42_arbitrator.md R180, R181, R183). -/
inductive PortEvent where
  | rx (mark : Bool) (byte : Byte)
  | txReady
  | cmd (c : HostCmd)
deriving DecidableEq, Repr

end Sys2Proof
end

