-- ==== Sys2Proof/Config.lean ====
section
/-! DEFINITION. What the source fixes (00_scope.md R9), and the free values. -/

namespace Sys2Proof

/-- `NSLOT`: slot-table entries (00_scope.md R9). -/
def Config.nslot : Nat := 31

/-- `MSG_MAX`: bytes of the largest Message (00_scope.md R9). -/
def Config.msgMax : Nat := 10

/-- `DATA_MAX`: data bytes of the largest Message (00_scope.md R9). -/
def Config.dataMax : Nat := 7

/-- DESIGN CHOICE (assumption 11), safe. A FREE VALUE: what byte position `i` of a Message that is shorter than
`i + 1` bytes reads as. With tables of `HDR_MAP` in their range every Message a rule commits has every position a rule
reads (43_dispatcher.md R230). -/
opaque Config.absentByte : Nat → BitVec 8

/-- DESIGN CHOICE (assumption 7), safe. A FREE VALUE: how far the `k`-th stale index copy advances
(10_state.md R48, 93_implementation_defined.md U3). Drawn only when `SYNC_LAG > 0`. -/
opaque Config.syncChoice : Nat → Nat

end Sys2Proof
end

