-- ==== Sys2Proof/Syntax.lean ====
section
/-! DEFINITION. The operations of the CORE: one constructor per row of spec/opcode_table.json, in the table's order. -/

namespace Sys2Proof

/-- The operations (00_scope.md R4, 30_encoding.md R131). Operands are the fields of the row, decoded:
`p` is the parity bit of a call byte as received, `addr` its address; `dev` is the address in byte 0 of a
Message (the sender of a device's frame, the destination of a master's); `arg0`, `arg1`, `arg2` are the host
command's arguments, those the command uses. -/
inductive Instr where
  -- CALLBYTE: a received byte with mark 1 (30_encoding.md R103 to R107)
  | cbPoll (p : Bool) (addr : DevAddr)
  | cbAckreq (p : Bool) (addr : DevAddr)
  | cbMsg (p : Bool) (addr : DevAddr)
  | cbReserved (p : Bool) (addr : DevAddr)
  -- FRAME_DM: a Message from a polled device (30_encoding.md R118)
  | ackResp (dev : DevAddr)
  | pwrServiceReq (dev : DevAddr)
  | devInit (dev : DevAddr)
  | pwrOffReq (dev : DevAddr)
  | pwrOnReq (dev : DevAddr)
  | cvReadDirect (dev : DevAddr) (cv : Byte)
  | cvWriteDirect (dev : DevAddr) (cv : Byte) (val : Byte)
  | turnoutStatusReq (dev : DevAddr) (grp : Byte) (nib : Bool)
  | turnoutCmd (dev : DevAddr) (t : BitVec 10) (pos : Bool) (act : Bool)
  | estopReq (dev : DevAddr)
  | locoInfoReq (dev : DevAddr) (loco : LocoAddr)
  | locoFuncReq (dev : DevAddr) (loco : LocoAddr)
  | locoDrive14 (dev : DevAddr) (loco : LocoAddr) (spd : Byte)
  | locoDrive27 (dev : DevAddr) (loco : LocoAddr) (spd : Byte)
  | locoDrive28 (dev : DevAddr) (loco : LocoAddr) (spd : Byte)
  | locoDrive128 (dev : DevAddr) (loco : LocoAddr) (spd : Byte)
  | locoFuncG1 (dev : DevAddr) (loco : LocoAddr) (fb : BitVec 5)
  | locoFuncG2 (dev : DevAddr) (loco : LocoAddr) (fb : BitVec 4)
  | locoFuncG3 (dev : DevAddr) (loco : LocoAddr) (fb : BitVec 4)
  | locoFuncG4 (dev : DevAddr) (loco : LocoAddr) (fb : Byte)
  | locoFuncG5 (dev : DevAddr) (loco : LocoAddr) (fb : Byte)
  | pomByte (dev : DevAddr) (loco : LocoAddr) (cv : BitVec 10) (val : Byte)
  | pomBit (dev : DevAddr) (loco : LocoAddr) (cv : BitVec 10) (bitPos : BitVec 3) (bitVal : Bool)
  | dmUnknown (dev : DevAddr) (hdr : Byte) (data : List Byte)
  -- FRAME_MD: a Message from a master (30_encoding.md R120)
  | turnoutFb (dev : DevAddr) (d0 : Byte) (d1 : Byte)
  | turnoutCmdM (dev : DevAddr) (t : BitVec 10) (pos : Bool) (act : Bool)
  | bcPwrOff (dev : DevAddr)
  | bcPwrOn (dev : DevAddr)
  | bcService (dev : DevAddr)
  | cvResult (dev : DevAddr) (cv : Byte) (val : Byte)
  | bcEstop (dev : DevAddr)
  | locoDrive14M (dev : DevAddr) (loco : LocoAddr) (spd : Byte)
  | locoDrive27M (dev : DevAddr) (loco : LocoAddr) (spd : Byte)
  | locoDrive28M (dev : DevAddr) (loco : LocoAddr) (spd : Byte)
  | locoDrive128M (dev : DevAddr) (loco : LocoAddr) (spd : Byte)
  | locoFuncG1M (dev : DevAddr) (loco : LocoAddr) (fb : BitVec 5)
  | locoFuncG2M (dev : DevAddr) (loco : LocoAddr) (fb : BitVec 4)
  | locoFuncG3M (dev : DevAddr) (loco : LocoAddr) (fb : BitVec 4)
  | locoFuncG4M (dev : DevAddr) (loco : LocoAddr) (fb : Byte)
  | locoFuncG5M (dev : DevAddr) (loco : LocoAddr) (fb : Byte)
  | mdIgnored (dev : DevAddr) (hdr : Byte) (data : List Byte)
  -- HOSTCMD (30_encoding.md R126)
  | setup (arg0 : BitVec 16) (arg1 : BitVec 8) (arg2 : BitVec 18)
  | poll
  | setPower (arg0 : BitVec 16)
  | getPower
  | getRole
  | locoClaim (arg0 : BitVec 16)
  | locoBusyNote (arg0 : BitVec 16)
  | pushDrive (arg0 : BitVec 16) (arg1 : BitVec 8) (arg2 : BitVec 18)
  | pushFunc (arg0 : BitVec 16) (arg1 : BitVec 8) (arg2 : BitVec 18)
  | getLocoInfo (arg0 : BitVec 16)
  | getLocoFunc (arg0 : BitVec 16)
  | pushTurnoutStatus (arg0 : BitVec 16)
  | pushTurnoutCmd (arg0 : BitVec 16) (arg1 : BitVec 8)
  | setCvReadValue (arg0 : BitVec 16) (arg1 : BitVec 8)
  | setCvNack
  | setCvNackSc
  | pushFeedback (arg0 : BitVec 16)
  | releaseSlot (arg0 : BitVec 16)
  | pendTimeout (arg0 : BitVec 16)
  | hostReserved (op : BitVec 5)
  -- EVENT (42_arbitrator.md R185, R192)
  | rxi (mark : Bool) (b : Byte)
  | txi
  -- INTERNAL_OP (40_wire_codec.md, 41_ring_buffers.md, 44_slot_table.md)
  | computeChecksum (hdr : Byte) (data : List Byte)
  | verify (m : Message)
  | callByteParity (raw : Byte)
  | encodeFrame (hdr : Byte) (data : List Byte)
  | beginWrite (q : RingId)
  | appendByte (q : RingId) (b : Byte)
  | commit (q : RingId)
  | abortWrite (q : RingId)
  | tryRead (q : RingId)
  | isEmpty (q : RingId)
  | isFull (q : RingId)
  | enqueue (m : Message)
  | requestBusy (s : Fin 31) (loco : LocoAddr)
  | markBusy (s : Fin 31) (loco : LocoAddr)
  | release (s : Fin 31)
  | holder (loco : LocoAddr)
deriving DecidableEq, Repr

end Sys2Proof
end

