-- ==== Sys2Proof/Machine/Codec.lean ====
section
/-! DEFINITION. The Wire Codec's pure functions (40_wire_codec.md R140 to R145) and the gray code of ring indices
(20_memory.md R86). -/

namespace Sys2Proof.Machine

/-- The number of 1 bits among the low `n` bits of `v` (00_scope.md R14). -/
def popcountBelow (v : Nat) : Nat → Nat
  | 0 => 0
  | n + 1 => popcountBelow v n + (v.testBit n).toNat

/-- `popcount` of a byte (00_scope.md R14). -/
def popcount (b : Byte) : Nat := popcountBelow b.toNat 8

/-- Exclusive-or of a byte sequence, starting from 0x00 (40_wire_codec.md R141). -/
def xorBytes (s : List Byte) : Byte := s.foldl (· ^^^ ·) 0

/-- `computeChecksum` of the header followed by the data bytes (40_wire_codec.md R141). -/
def computeChecksum (hdr : Byte) (data : List Byte) : Byte := xorBytes (hdr :: data)

/-- `verify`: header through checksum xor to 0x00; the call byte is not examined (40_wire_codec.md R142). -/
def verify (m : Message) : Bool := xorBytes (m.drop 1) == 0

/-- `callByteParity`: bit 6 of `raw` is ignored and set so that the count of 1 bits is even (40_wire_codec.md R143). -/
def callByteParity (raw : Byte) : Byte :=
  let c := raw &&& 0xBF
  if popcount c % 2 = 1 then c ||| 0x40 else c

/-- `encode`: header, data, checksum (40_wire_codec.md R144). -/
def encodeFrame (hdr : Byte) (data : List Byte) : List Byte :=
  hdr :: data ++ [computeChecksum hdr data]

/-- The class bits 7 and 5 of a call byte, the other bits 0 (30_encoding.md R103, R105). -/
def classBits : CbClass → Byte
  | .poll => 0x00
  | .ackreq => 0x20
  | .msg => 0x80
  | .reserved => 0xA0

/-- The class of a call byte, `{bit 7, bit 5}` (30_encoding.md R105). -/
def cbClass (cb : Byte) : CbClass :=
  match cb.getLsbD 7, cb.getLsbD 5 with
  | false, false => .poll
  | false, true => .ackreq
  | true, false => .msg
  | true, true => .reserved

/-- The address field of a call byte, bits 4:0 (30_encoding.md R103). -/
def cbAddr (cb : Byte) : DevAddr := cb.extractLsb' 0 5

/-- The parity field of a call byte, bit 6 (30_encoding.md R103). -/
def cbParityBit (cb : Byte) : Bool := cb.getLsbD 6

/-- A received call byte has good parity iff its count of 1 bits is even (30_encoding.md R104). -/
def cbOk (cb : Byte) : Bool := popcount cb % 2 == 0

/-- The call byte with class `cls`, parity bit `p` and address `a`, whether its parity is good or not. -/
def rawCallByte (cls : CbClass) (p : Bool) (a : DevAddr) : Byte :=
  classBits cls ||| (if p then 0x40 else 0x00) ||| a.setWidth 8

/-- `mk_cb` (40_wire_codec.md R145). -/
def mkCb (cls : CbClass) (a : DevAddr) : Byte := callByteParity (classBits cls ||| a.setWidth 8)

/-- Byte `i` of a sequence; a position it does not have reads as a free value (assumption 11). -/
def byteAt (m : List Byte) (i : Nat) : Byte := m.getD i (Config.absentByte i)

/-- The number of data bytes a header announces, its low nibble (30_encoding.md R109). -/
def dataCount (hdr : Byte) : Nat := (hdr.extractLsb' 0 4).toNat

/-- `n = ceil(log2(2*CAP))`, the width of a ring index, for `CAP >= 1` (20_memory.md R86). -/
def indexWidth (cap : Nat) : Nat := Nat.log2 (2 * cap - 1) + 1

/-- `OFF = (2^n - 2*CAP) / 2` (20_memory.md R86). -/
def grayOffset (cap : Nat) : Nat := (2 ^ indexWidth cap - 2 * cap) / 2

/-- `G(p) = v ^ (v >> 1)` with `v = p + OFF` (20_memory.md R86). -/
def grayCode (cap p : Nat) : Nat := (p + grayOffset cap) ^^^ ((p + grayOffset cap) >>> 1)

/-- The reflected gray code read back over `n` bits, `g ^ (g >> 1) ^ .. ^ (g >> (n-1))` (20_memory.md R86: the
receiver "converts it back"). -/
def grayValue (g : Nat) : Nat → Nat
  | 0 => 0
  | n + 1 => grayValue g n ^^^ (g >>> n)

/-- The index value a gray code stands for (20_memory.md R86). -/
def grayIndex (cap g : Nat) : Nat := grayValue g (indexWidth cap) - grayOffset cap

end Sys2Proof.Machine
end

