-- ==== Sys2Proof/Machine/Operands.lean ====
section
/-! DEFINITION. Operand fields of frames and of host arguments: how each is read from its bytes and written to them
(30_encoding.md R110 to R116, R126, R127). -/

namespace Sys2Proof.Machine

/-- The 14-bit locomotive address from `AH`, `AL`; `AH[7:6]` are ignored (30_encoding.md R110). -/
def locoOf (ah al : Byte) : LocoAddr := ah.extractLsb' 0 6 ++ al

/-- `AH` of an address: the high six bits, with 0xC0 added when the address is at least 100 (30_encoding.md R110). -/
def locoHigh (a : LocoAddr) : Byte :=
  (a.extractLsb' 8 6).setWidth 8 ||| (if 100 ≤ a.toNat then 0xC0 else 0x00)

/-- `AL` of an address (30_encoding.md R110). -/
def locoLow (a : LocoAddr) : Byte := a.extractLsb' 0 8

/-- `T = {GRP, BB}` from the two data bytes of a turnout command (30_encoding.md R113). -/
def turnoutOf (d0 d1 : Byte) : BitVec 10 := d0 ++ d1.extractLsb' 1 2

/-- `P`, the position bit of a turnout command (30_encoding.md R113). -/
def turnoutPos (d1 : Byte) : Bool := d1.getLsbD 0

/-- `A`, the active bit of a turnout command (30_encoding.md R113). -/
def turnoutActive (d1 : Byte) : Bool := d1.getLsbD 3

/-- `GRP = T[9:2]` (30_encoding.md R113). -/
def turnoutGroup (t : BitVec 10) : Byte := t.extractLsb' 2 8

/-- `D1 = 0b1000_A_BB_P` of a turnout command (30_encoding.md R113). -/
def turnoutD1 (t : BitVec 10) (pos act : Bool) : Byte :=
  0x80 ||| (if act then 0x08 else 0x00) ||| ((t.extractLsb' 0 2).setWidth 8 <<< 1) ||| (if pos then 0x01 else 0x00)

/-- `CV10 = {MODE[1:0], CVL}` (30_encoding.md R115). -/
def pomCv (mode cvl : Byte) : BitVec 10 := mode.extractLsb' 0 2 ++ cvl

/-- `MODE[7:2]`, which selects the kind of POM write (30_encoding.md R115). -/
def pomModeTag (mode : Byte) : BitVec 6 := mode.extractLsb' 2 6

/-- `MODE` from its tag and the high bits of the CV number (30_encoding.md R115). -/
def pomMode (tag : BitVec 6) (cv : BitVec 10) : Byte := tag ++ cv.extractLsb' 8 2

/-- The bit position and the bit value of a POM bit write as one byte, the ignored bits 0 (30_encoding.md R115). -/
def pomBitByte (pos : BitVec 3) (val : Bool) : Byte := (if val then 0x08 else 0x00) ||| pos.setWidth 8

/-- The mask of a function group's width (45_host_commands.md R315, 30_encoding.md R112). -/
def groupMask : FuncGroup → Byte
  | .g1 => 0x1F
  | .g2 => 0x0F
  | .g3 => 0x0F
  | .g4 => 0xFF
  | .g5 => 0xFF

/-- `STEPS_DEF` from its code (10_state.md R26). -/
def stepsOfCode (c : BitVec 2) : Steps :=
  match c with
  | 0 => .s14
  | 1 => .s27
  | 2 => .s28
  | 3 => .s128

/-- The step selector of PUSH_DRIVE: 0..3 name a variant, 4 is DEFAULT, others are out of range (30_encoding.md R127). -/
def stepsOfSelector (dflt : Steps) (sel : BitVec 18) : Option Steps :=
  if sel = 0 then some .s14
  else if sel = 1 then some .s27
  else if sel = 2 then some .s28
  else if sel = 3 then some .s128
  else if sel = 4 then some dflt
  else none

/-- The group selector of PUSH_FUNC: 1..5, others are out of range (30_encoding.md R127). -/
def groupOfSelector (sel : BitVec 18) : Option FuncGroup :=
  if sel = 1 then some .g1
  else if sel = 2 then some .g2
  else if sel = 3 then some .g3
  else if sel = 4 then some .g4
  else if sel = 5 then some .g5
  else none

/-- The power state of a code 0..4, others are out of range (10_state.md R45). -/
def powerOfCode (c : BitVec 16) : Option Power :=
  if c = 0 then some .normal
  else if c = 1 then some .estop
  else if c = 2 then some .off
  else if c = 3 then some .short
  else if c = 4 then some .service
  else none

/-- The code of a power state (10_state.md R45). -/
def powerCode : Power → BitVec 3
  | .normal => 0
  | .estop => 1
  | .off => 2
  | .short => 3
  | .service => 4

/-- The code of a role (10_state.md R28). -/
def roleCode : Role → BitVec 2
  | .idle => 0
  | .master => 1
  | .slaveInit => 2
  | .slave => 3

/-- A 16-bit argument as a locomotive address, `0..16383`, others are out of range (45_host_commands.md R306). -/
def locoArg (arg0 : BitVec 16) : Option LocoAddr :=
  if arg0.toNat < 16384 then some (arg0.setWidth 14) else none

/-- A 16-bit argument as a turnout number, `0..1023`, others are out of range (45_host_commands.md R319). -/
def turnoutArg (arg0 : BitVec 16) : Option (BitVec 10) :=
  if arg0.toNat < 1024 then some (arg0.setWidth 10) else none

/-- A 16-bit argument as a direct-mode CV number, `0..255`, others are out of range (45_host_commands.md R320). -/
def cvArg (arg0 : BitVec 16) : Option Byte :=
  if arg0.toNat < 256 then some (arg0.setWidth 8) else none

/-- Bits 15:8 of a 16-bit argument (30_encoding.md R126). -/
def argHigh (arg0 : BitVec 16) : Byte := arg0.extractLsb' 8 8

/-- Bits 7:0 of a 16-bit argument (30_encoding.md R126). -/
def argLow (arg0 : BitVec 16) : Byte := arg0.extractLsb' 0 8

/-- The slot number of the bus device with address `a`, `a - 1` (44_slot_table.md R290). -/
def slotOfDev (a : DevAddr) : Nat := a.toNat - 1

end Sys2Proof.Machine
end

