-- ==== Sys2Proof/Machine/HdrMap.lean ====
section
/-! DEFINITION. `HDR_MAP` and its default tables (30_encoding.md R117 to R122; assumption 5): which kind a Message is,
from its header, its first data byte and, for POM, the tag of its fourth; where its operands stand; and the header,
sub-code and operand positions of every frame the CORE builds. -/

namespace Sys2Proof.Machine

/-- The kinds of the device-to-master table (30_encoding.md R118). -/
inductive DmKind where
  | ackResp | pwrServiceReq | devInit | pwrOffReq | pwrOnReq | cvReadDirect | cvWriteDirect
  | turnoutStatusReq | turnoutCmd | estopReq | locoInfoReq | locoFuncReq
  | locoDrive14 | locoDrive27 | locoDrive28 | locoDrive128
  | locoFuncG1 | locoFuncG2 | locoFuncG3 | locoFuncG4 | locoFuncG5
  | pomByte | pomBit | unknown
deriving DecidableEq, Repr

/-- The kinds of the master-to-device table (30_encoding.md R120). -/
inductive MdKind where
  | turnoutFb | turnoutCmdM | bcPwrOff | bcPwrOn | bcService | cvResult | bcEstop
  | locoDrive14M | locoDrive27M | locoDrive28M | locoDrive128M
  | locoFuncG1M | locoFuncG2M | locoFuncG3M | locoFuncG4M | locoFuncG5M
  | ignored
deriving DecidableEq, Repr

/-- One row of a table: the header, the condition on Data0 if any, the condition on `D3[7:2]` if any, the kind, and the
positions among the data bytes of the kind's operand bytes, in the order of 30_encoding.md R110 to R116. -/
structure HdrRow (κ : Type) where
  hdr : Byte
  d0 : Option Byte
  tag : Option (BitVec 6)
  kind : κ
  args : List Nat
deriving DecidableEq, Repr

/-- The device-to-master rows in the table's order; the catch-all is not a row here (30_encoding.md R118). -/
def dmRows : List (HdrRow DmKind) :=
  [ ⟨0x20, none, none, .ackResp, []⟩,
    ⟨0x21, some 0x10, none, .pwrServiceReq, []⟩,
    ⟨0x21, some 0x21, none, .devInit, []⟩,
    ⟨0x21, some 0x80, none, .pwrOffReq, []⟩,
    ⟨0x21, some 0x81, none, .pwrOnReq, []⟩,
    ⟨0x22, some 0x15, none, .cvReadDirect, [1]⟩,
    ⟨0x23, some 0x16, none, .cvWriteDirect, [1, 2]⟩,
    ⟨0x42, none, none, .turnoutStatusReq, [0, 1]⟩,
    ⟨0x52, none, none, .turnoutCmd, [0, 1]⟩,
    ⟨0x80, none, none, .estopReq, []⟩,
    ⟨0xE3, some 0x00, none, .locoInfoReq, [1, 2]⟩,
    ⟨0xE3, some 0x07, none, .locoFuncReq, [1, 2]⟩,
    ⟨0xE4, some 0x10, none, .locoDrive14, [1, 2, 3]⟩,
    ⟨0xE4, some 0x11, none, .locoDrive27, [1, 2, 3]⟩,
    ⟨0xE4, some 0x12, none, .locoDrive28, [1, 2, 3]⟩,
    ⟨0xE4, some 0x13, none, .locoDrive128, [1, 2, 3]⟩,
    ⟨0xE4, some 0x20, none, .locoFuncG1, [1, 2, 3]⟩,
    ⟨0xE4, some 0x21, none, .locoFuncG2, [1, 2, 3]⟩,
    ⟨0xE4, some 0x22, none, .locoFuncG3, [1, 2, 3]⟩,
    ⟨0xE4, some 0x23, none, .locoFuncG4, [1, 2, 3]⟩,
    ⟨0xE4, some 0x28, none, .locoFuncG5, [1, 2, 3]⟩,
    ⟨0xE6, some 0x30, some 0b111011, .pomByte, [1, 2, 3, 4, 5]⟩,
    ⟨0xE6, some 0x30, some 0b111010, .pomBit, [1, 2, 3, 4, 5]⟩ ]

/-- The master-to-device rows in the table's order; the catch-all is not a row here (30_encoding.md R120). -/
def mdRows : List (HdrRow MdKind) :=
  [ ⟨0x42, none, none, .turnoutFb, [0, 1]⟩,
    ⟨0x52, none, none, .turnoutCmdM, [0, 1]⟩,
    ⟨0x61, some 0x00, none, .bcPwrOff, []⟩,
    ⟨0x61, some 0x01, none, .bcPwrOn, []⟩,
    ⟨0x61, some 0x02, none, .bcService, []⟩,
    ⟨0x63, some 0x14, none, .cvResult, [1, 2]⟩,
    ⟨0x81, some 0x00, none, .bcEstop, []⟩,
    ⟨0xE4, some 0x10, none, .locoDrive14M, [1, 2, 3]⟩,
    ⟨0xE4, some 0x11, none, .locoDrive27M, [1, 2, 3]⟩,
    ⟨0xE4, some 0x12, none, .locoDrive28M, [1, 2, 3]⟩,
    ⟨0xE4, some 0x13, none, .locoDrive128M, [1, 2, 3]⟩,
    ⟨0xE4, some 0x20, none, .locoFuncG1M, [1, 2, 3]⟩,
    ⟨0xE4, some 0x21, none, .locoFuncG2M, [1, 2, 3]⟩,
    ⟨0xE4, some 0x22, none, .locoFuncG3M, [1, 2, 3]⟩,
    ⟨0xE4, some 0x23, none, .locoFuncG4M, [1, 2, 3]⟩,
    ⟨0xE4, some 0x28, none, .locoFuncG5M, [1, 2, 3]⟩ ]

/-- Whether a row matches a header and data bytes (30_encoding.md R117). -/
def HdrRow.matches {κ : Type} (r : HdrRow κ) (hdr : Byte) (data : List Byte) : Bool :=
  r.hdr == hdr && r.d0.all (· == byteAt data 0) && r.tag.all (· == pomModeTag (byteAt data 3))

/-! ### Frames the CORE builds -/

/-- One data byte of a frame the CORE builds: a fixed one (a sub-code) or the frame's `k`-th operand byte. -/
inductive DataByte where
  | const (b : Byte)
  | operand (k : Nat)
deriving DecidableEq, Repr

/-- A frame the CORE builds: its header and its data bytes (30_encoding.md R122). -/
structure FrameTemplate where
  hdr : Byte
  data : List DataByte
deriving DecidableEq, Repr

/-- A data byte, given the operand bytes. -/
def DataByte.value (ops : List Byte) : DataByte → Byte
  | .const b => b
  | .operand k => byteAt ops k

/-- The frame of a template: header, data, checksum. A frame has at most `DATA_MAX` data bytes (30_encoding.md R109,
40_wire_codec.md R144); a template of more is out of range (`HdrMap.inRange`) and is cut. -/
def FrameTemplate.build (f : FrameTemplate) (ops : List Byte) : List Byte :=
  encodeFrame f.hdr ((f.data.take Config.dataMax).map (DataByte.value ops))

/-- The frames of 30_encoding.md R122 but `F_INIT` and `F_ACK`, which are parameters of their own (00_scope.md R10). -/
structure BuiltFrames where
  /-- `F_BC_PWR_ON`. -/
  bcPwrOn : FrameTemplate
  /-- `F_BC_PWR_OFF`. -/
  bcPwrOff : FrameTemplate
  /-- `F_BC_SERVICE`. -/
  bcService : FrameTemplate
  /-- `F_BC_ESTOP`. -/
  bcEstop : FrameTemplate
  /-- `F_NOT_UNDERSTOOD`. -/
  notUnderstood : FrameTemplate
  /-- `F_BUSY(A, S)`; operands `AH`, `AL`, `S`. -/
  busy : FrameTemplate
  /-- `F_PWR_ON_REQ`. -/
  pwrOnReq : FrameTemplate
  /-- `F_PWR_OFF_REQ`. -/
  pwrOffReq : FrameTemplate
  /-- `F_ESTOP_REQ`. -/
  estopReq : FrameTemplate
  /-- `F_SERVICE_REQ`. -/
  serviceReq : FrameTemplate
  /-- `F_DRIVE(0, A, SPD)`; operands `AH`, `AL`, `SPD`. -/
  drive14 : FrameTemplate
  /-- `F_DRIVE(1, A, SPD)`. -/
  drive27 : FrameTemplate
  /-- `F_DRIVE(2, A, SPD)`. -/
  drive28 : FrameTemplate
  /-- `F_DRIVE(3, A, SPD)`. -/
  drive128 : FrameTemplate
  /-- `F_FUNC(1, A, FB)`; operands `AH`, `AL`, `FB`. -/
  func1 : FrameTemplate
  /-- `F_FUNC(2, A, FB)`. -/
  func2 : FrameTemplate
  /-- `F_FUNC(3, A, FB)`. -/
  func3 : FrameTemplate
  /-- `F_FUNC(4, A, FB)`. -/
  func4 : FrameTemplate
  /-- `F_FUNC(5, A, FB)`. -/
  func5 : FrameTemplate
  /-- `F_INFO_REQ(A)`; operands `AH`, `AL`. -/
  infoReq : FrameTemplate
  /-- `F_FUNC_REQ(A)`; operands `AH`, `AL`. -/
  funcReq : FrameTemplate
  /-- `F_TURNOUT_FB(a, d)`; operands `a`, `d`. -/
  turnoutFb : FrameTemplate
  /-- `F_TURNOUT_CMD(T, P, A)`; operands `GRP`, `D1`. -/
  turnoutCmd : FrameTemplate
  /-- `F_CV_RESULT(cv, v)`; operands `cv`, `v`. -/
  cvResult : FrameTemplate
  /-- `F_CV_NACK`. -/
  cvNack : FrameTemplate
  /-- `F_CV_NACK_SC`. -/
  cvNackSc : FrameTemplate
deriving DecidableEq, Repr

/-- The default bytes of the frames the CORE builds (30_encoding.md R122). -/
def defaultBuilt : BuiltFrames :=
  { bcPwrOn := ⟨0x61, [.const 0x01]⟩
    bcPwrOff := ⟨0x61, [.const 0x00]⟩
    bcService := ⟨0x61, [.const 0x02]⟩
    bcEstop := ⟨0x81, [.const 0x00]⟩
    notUnderstood := ⟨0x61, [.const 0x82]⟩
    busy := ⟨0xE4, [.const 0x40, .operand 0, .operand 1, .operand 2]⟩
    pwrOnReq := ⟨0x21, [.const 0x81]⟩
    pwrOffReq := ⟨0x21, [.const 0x80]⟩
    estopReq := ⟨0x80, []⟩
    serviceReq := ⟨0x21, [.const 0x10]⟩
    drive14 := ⟨0xE4, [.const 0x10, .operand 0, .operand 1, .operand 2]⟩
    drive27 := ⟨0xE4, [.const 0x11, .operand 0, .operand 1, .operand 2]⟩
    drive28 := ⟨0xE4, [.const 0x12, .operand 0, .operand 1, .operand 2]⟩
    drive128 := ⟨0xE4, [.const 0x13, .operand 0, .operand 1, .operand 2]⟩
    func1 := ⟨0xE4, [.const 0x20, .operand 0, .operand 1, .operand 2]⟩
    func2 := ⟨0xE4, [.const 0x21, .operand 0, .operand 1, .operand 2]⟩
    func3 := ⟨0xE4, [.const 0x22, .operand 0, .operand 1, .operand 2]⟩
    func4 := ⟨0xE4, [.const 0x23, .operand 0, .operand 1, .operand 2]⟩
    func5 := ⟨0xE4, [.const 0x28, .operand 0, .operand 1, .operand 2]⟩
    infoReq := ⟨0xE3, [.const 0x00, .operand 0, .operand 1]⟩
    funcReq := ⟨0xE3, [.const 0x07, .operand 0, .operand 1]⟩
    turnoutFb := ⟨0x42, [.operand 0, .operand 1]⟩
    turnoutCmd := ⟨0x52, [.operand 0, .operand 1]⟩
    cvResult := ⟨0x63, [.const 0x14, .operand 0, .operand 1]⟩
    cvNack := ⟨0x61, [.const 0x13]⟩
    cvNackSc := ⟨0x61, [.const 0x12]⟩ }

/-! ### The parameter -/

/-- The parameter `HDR_MAP`: the rows of the two decoding tables, and the frames the CORE builds (00_scope.md R10,
92_eei_decisions.md D13, 93_implementation_defined.md U4). -/
structure HdrMap where
  /-- The device-to-master rows. -/
  dm : List (HdrRow DmKind)
  /-- The master-to-device rows. -/
  md : List (HdrRow MdKind)
  /-- The frames the CORE builds. -/
  built : BuiltFrames
deriving DecidableEq, Repr

/-- The default tables (30_encoding.md R118 to R122). -/
def defaultHdrMap : HdrMap := { dm := dmRows, md := mdRows, built := defaultBuilt }

/-- The row of a device's frame, the first that matches (30_encoding.md R117). -/
def HdrMap.dmRow (t : HdrMap) (hdr : Byte) (data : List Byte) : Option (HdrRow DmKind) :=
  t.dm.find? (·.matches hdr data)

/-- The row of a master's frame, the first that matches (30_encoding.md R117). -/
def HdrMap.mdRow (t : HdrMap) (hdr : Byte) (data : List Byte) : Option (HdrRow MdKind) :=
  t.md.find? (·.matches hdr data)

/-- The kind of a device's frame by a table: the first row that matches, else unknown (30_encoding.md R117, R119). -/
def dmKindBy (t : HdrMap) (hdr : Byte) (data : List Byte) : DmKind :=
  ((t.dmRow hdr data).map (·.kind)).getD .unknown

/-- The kind of a master's frame by a table: the first row that matches, else ignored (30_encoding.md R117, R121). -/
def mdKindBy (t : HdrMap) (hdr : Byte) (data : List Byte) : MdKind :=
  ((t.mdRow hdr data).map (·.kind)).getD .ignored

/-- The operand bytes a row names, in the kind's order; a position the frame does not have is a free value (assumption 11). -/
def HdrRow.operands {κ : Type} (r : Option (HdrRow κ)) (data : List Byte) : List Byte :=
  ((r.map (·.args)).getD []).map (byteAt data)

/-- The kind of a device's frame by the default table (30_encoding.md R118, R119). -/
def dmKind (hdr : Byte) (data : List Byte) : DmKind := dmKindBy defaultHdrMap hdr data

/-- The kind of a master's frame by the default table (30_encoding.md R120, R121). -/
def mdKind (hdr : Byte) (data : List Byte) : MdKind := mdKindBy defaultHdrMap hdr data

/-! ### The range of the parameter -/

/-- How many operand bytes a kind of the device-to-master table has (30_encoding.md R118). -/
def DmKind.arity : DmKind → Nat
  | .ackResp | .pwrServiceReq | .devInit | .pwrOffReq | .pwrOnReq | .estopReq | .unknown => 0
  | .cvReadDirect => 1
  | .cvWriteDirect | .turnoutStatusReq | .turnoutCmd | .locoInfoReq | .locoFuncReq => 2
  | .locoDrive14 | .locoDrive27 | .locoDrive28 | .locoDrive128
  | .locoFuncG1 | .locoFuncG2 | .locoFuncG3 | .locoFuncG4 | .locoFuncG5 => 3
  | .pomByte | .pomBit => 5

/-- How many operand bytes a kind of the master-to-device table has (30_encoding.md R120). -/
def MdKind.arity : MdKind → Nat
  | .bcPwrOff | .bcPwrOn | .bcService | .bcEstop | .ignored => 0
  | .turnoutFb | .turnoutCmdM | .cvResult => 2
  | .locoDrive14M | .locoDrive27M | .locoDrive28M | .locoDrive128M
  | .locoFuncG1M | .locoFuncG2M | .locoFuncG3M | .locoFuncG4M | .locoFuncG5M => 3

/-- A row names all operands of its kind, and its conditions and operands stand at positions its header gives the frame
(43_dispatcher.md R230: "every operand position a row reads exists"). -/
def HdrRow.inRange {κ : Type} (arity : κ → Nat) (r : HdrRow κ) : Bool :=
  r.args.length == arity r.kind && (r.args.all fun k => decide (k < dataCount r.hdr)) &&
  (r.d0.isNone || decide (0 < dataCount r.hdr)) && (r.tag.isNone || decide (3 < dataCount r.hdr))

/-- A frame's header agrees with its number of data bytes, at most 7 (30_encoding.md R109), and it has no operand but its `n`. -/
def FrameTemplate.inRange (n : Nat) (f : FrameTemplate) : Bool :=
  f.data.length == dataCount f.hdr && decide (f.data.length ≤ Config.dataMax) &&
  f.data.all fun d => match d with
    | .const _ => true
    | .operand k => decide (k < n)

/-- The tables agree with the lengths their headers announce (30_encoding.md R109, 43_dispatcher.md R230). -/
def HdrMap.inRange (t : HdrMap) : Bool :=
  t.dm.all (·.inRange DmKind.arity) && t.md.all (·.inRange MdKind.arity) &&
  [t.built.bcPwrOn, t.built.bcPwrOff, t.built.bcService, t.built.bcEstop, t.built.notUnderstood, t.built.pwrOnReq,
    t.built.pwrOffReq, t.built.estopReq, t.built.serviceReq, t.built.cvNack, t.built.cvNackSc].all (·.inRange 0) &&
  [t.built.infoReq, t.built.funcReq, t.built.turnoutFb, t.built.turnoutCmd, t.built.cvResult].all (·.inRange 2) &&
  [t.built.busy, t.built.drive14, t.built.drive27, t.built.drive28, t.built.drive128, t.built.func1, t.built.func2,
    t.built.func3, t.built.func4, t.built.func5].all (·.inRange 3)

end Sys2Proof.Machine
end

