-- ==== Sys2Proof/WellFormed.lean ====
section
/-! DEFINITION. Which terms of `Instr` stand for an operation of the opcode table. -/

namespace Sys2Proof

/-- A term is well formed when its operands are in the range its row gives them; every range a type already
holds is left to the type.
* A call-byte row "applies only to a byte whose parity is good" (30_encoding.md R131, R104).
* The catch-all rows hold a frame that no earlier row matches, with as many data bytes as its header says, at
  most 7 (R109, R117, R119, R121).
* A reserved host code is 19..31 (R126).
* The RXI row stands for a data byte, mark 0; a byte with mark 1 is one of the four call-byte rows (assumption 16).
* Codec operands: at most 7 data bytes, a Message of 3..10 bytes (40_wire_codec.md R141, R142, R144, 30_encoding.md R100). -/
def Instr.WellFormed : Instr → Bool
  | .cbPoll p a => Machine.cbOk (Machine.rawCallByte .poll p a)
  | .cbAckreq p a => Machine.cbOk (Machine.rawCallByte .ackreq p a)
  | .cbMsg p a => Machine.cbOk (Machine.rawCallByte .msg p a)
  | .cbReserved p a => Machine.cbOk (Machine.rawCallByte .reserved p a)
  | .dmUnknown _ hdr data =>
      data.length == Machine.dataCount hdr && decide (data.length ≤ Config.dataMax) && Machine.dmKind hdr data == .unknown
  | .mdIgnored _ hdr data =>
      data.length == Machine.dataCount hdr && decide (data.length ≤ Config.dataMax) && Machine.mdKind hdr data == .ignored
  | .hostReserved op => decide (19 ≤ op.toNat)
  | .rxi mark _ => !mark
  | .computeChecksum _ data => decide (data.length ≤ Config.dataMax)
  | .encodeFrame _ data => decide (data.length ≤ Config.dataMax)
  | .verify m => decide (3 ≤ m.length) && decide (m.length ≤ Config.msgMax)
  | .enqueue m => decide (3 ≤ m.length) && decide (m.length ≤ Config.msgMax)
  | .ackResp _ | .pwrServiceReq _ | .devInit _ | .pwrOffReq _ | .pwrOnReq _ | .cvReadDirect _ _
  | .cvWriteDirect _ _ _ | .turnoutStatusReq _ _ _ | .turnoutCmd _ _ _ _ | .estopReq _ | .locoInfoReq _ _
  | .locoFuncReq _ _ | .locoDrive14 _ _ _ | .locoDrive27 _ _ _ | .locoDrive28 _ _ _ | .locoDrive128 _ _ _
  | .locoFuncG1 _ _ _ | .locoFuncG2 _ _ _ | .locoFuncG3 _ _ _ | .locoFuncG4 _ _ _ | .locoFuncG5 _ _ _
  | .pomByte _ _ _ _ | .pomBit _ _ _ _ _ => true
  | .turnoutFb _ _ _ | .turnoutCmdM _ _ _ _ | .bcPwrOff _ | .bcPwrOn _ | .bcService _ | .cvResult _ _ _
  | .bcEstop _ | .locoDrive14M _ _ _ | .locoDrive27M _ _ _ | .locoDrive28M _ _ _ | .locoDrive128M _ _ _
  | .locoFuncG1M _ _ _ | .locoFuncG2M _ _ _ | .locoFuncG3M _ _ _ | .locoFuncG4M _ _ _ | .locoFuncG5M _ _ _ => true
  | .setup _ _ _ | .poll | .setPower _ | .getPower | .getRole | .locoClaim _ | .locoBusyNote _ | .pushDrive _ _ _
  | .pushFunc _ _ _ | .getLocoInfo _ | .getLocoFunc _ | .pushTurnoutStatus _ | .pushTurnoutCmd _ _
  | .setCvReadValue _ _ | .setCvNack | .setCvNackSc | .pushFeedback _ | .releaseSlot _ | .pendTimeout _ => true
  | .txi => true
  | .callByteParity _ | .beginWrite _ | .appendByte _ _ | .commit _ | .abortWrite _ | .tryRead _ | .isEmpty _
  | .isFull _ | .requestBusy _ _ | .markBusy _ _ | .release _ | .holder _ => true

end Sys2Proof
end

