-- ==== Sys2Proof/Decode.lean ====
section
/-! DEFINITION. Decode: from the bits at the CORE's ports and from a Message to an operation; and the encoder back. -/

namespace Sys2Proof

/-- The bits an operation is read from: an event at a port, or a Message drained from the RX ring
(30_encoding.md R131; the INTERNAL_OP rows have none). -/
inductive Code where
  | port (e : PortEvent)
  | frame (m : Message)
deriving DecidableEq, Repr

/-- Why bits are no operation. -/
inductive DecodeError where
  /-- A Message whose byte 0 has a class other than POLL and MSG: "cannot be in the RX ring and, if met, is
  discarded" (30_encoding.md R117). Raised by `decodeFrame`; safe, no reachable Message has it. -/
  | notADirection (cls : CbClass)
deriving DecidableEq, Repr

/-- A received byte with mark 1: the four CALLBYTE rows partition all 256 values (30_encoding.md R131). -/
def decodeCallByte (b : Byte) : Instr :=
  match Machine.cbClass b with
  | .poll => .cbPoll (Machine.cbParityBit b) (Machine.cbAddr b)
  | .ackreq => .cbAckreq (Machine.cbParityBit b) (Machine.cbAddr b)
  | .msg => .cbMsg (Machine.cbParityBit b) (Machine.cbAddr b)
  | .reserved => .cbReserved (Machine.cbParityBit b) (Machine.cbAddr b)

/-- A host command by its code; arguments the command does not use are ignored (30_encoding.md R125, R126). -/
def decodeHost (c : HostCmd) : Instr :=
  match c.op.toNat with
  | 0 => .setup c.arg0 c.arg1 c.arg2
  | 1 => .poll
  | 2 => .setPower c.arg0
  | 3 => .getPower
  | 4 => .getRole
  | 5 => .locoClaim c.arg0
  | 6 => .locoBusyNote c.arg0
  | 7 => .pushDrive c.arg0 c.arg1 c.arg2
  | 8 => .pushFunc c.arg0 c.arg1 c.arg2
  | 9 => .getLocoInfo c.arg0
  | 10 => .getLocoFunc c.arg0
  | 11 => .pushTurnoutStatus c.arg0
  | 12 => .pushTurnoutCmd c.arg0 c.arg1
  | 13 => .setCvReadValue c.arg0 c.arg1
  | 14 => .setCvNack
  | 15 => .setCvNackSc
  | 16 => .pushFeedback c.arg0
  | 17 => .releaseSlot c.arg0
  | 18 => .pendTimeout c.arg0
  | _ => .hostReserved c.op

/-- An event at a port (42_arbitrator.md R180, R181, R183); total. -/
def decodePort : PortEvent → Instr
  | .rx true b => decodeCallByte b
  | .rx false b => .rxi false b
  | .txReady => .txi
  | .cmd c => decodeHost c

/-- A device's frame by a device-to-master table, its operands read where the row says (30_encoding.md R110 to R118). -/
def decodeDm (t : Machine.HdrMap) (dev : DevAddr) (hdr : Byte) (d : List Byte) : Instr :=
  let x := Machine.byteAt (Machine.HdrRow.operands (t.dmRow hdr d) d)
  let loco := Machine.locoOf (x 0) (x 1)
  match Machine.dmKindBy t hdr d with
  | .ackResp => .ackResp dev
  | .pwrServiceReq => .pwrServiceReq dev
  | .devInit => .devInit dev
  | .pwrOffReq => .pwrOffReq dev
  | .pwrOnReq => .pwrOnReq dev
  | .cvReadDirect => .cvReadDirect dev (x 0)
  | .cvWriteDirect => .cvWriteDirect dev (x 0) (x 1)
  | .turnoutStatusReq => .turnoutStatusReq dev (x 0) ((x 1).getLsbD 0)
  | .turnoutCmd =>
      .turnoutCmd dev (Machine.turnoutOf (x 0) (x 1))
        (Machine.turnoutPos (x 1)) (Machine.turnoutActive (x 1))
  | .estopReq => .estopReq dev
  | .locoInfoReq => .locoInfoReq dev loco
  | .locoFuncReq => .locoFuncReq dev loco
  | .locoDrive14 => .locoDrive14 dev loco (x 2)
  | .locoDrive27 => .locoDrive27 dev loco (x 2)
  | .locoDrive28 => .locoDrive28 dev loco (x 2)
  | .locoDrive128 => .locoDrive128 dev loco (x 2)
  | .locoFuncG1 => .locoFuncG1 dev loco ((x 2).extractLsb' 0 5)
  | .locoFuncG2 => .locoFuncG2 dev loco ((x 2).extractLsb' 0 4)
  | .locoFuncG3 => .locoFuncG3 dev loco ((x 2).extractLsb' 0 4)
  | .locoFuncG4 => .locoFuncG4 dev loco (x 2)
  | .locoFuncG5 => .locoFuncG5 dev loco (x 2)
  | .pomByte => .pomByte dev loco (Machine.pomCv (x 2) (x 3)) (x 4)
  | .pomBit =>
      .pomBit dev loco (Machine.pomCv (x 2) (x 3)) ((x 4).extractLsb' 0 3)
        ((x 4).getLsbD 3)
  | .unknown => .dmUnknown dev hdr d

/-- A master's frame by a master-to-device table (30_encoding.md R110 to R116, R120). -/
def decodeMd (t : Machine.HdrMap) (dev : DevAddr) (hdr : Byte) (d : List Byte) : Instr :=
  let x := Machine.byteAt (Machine.HdrRow.operands (t.mdRow hdr d) d)
  let loco := Machine.locoOf (x 0) (x 1)
  match Machine.mdKindBy t hdr d with
  | .turnoutFb => .turnoutFb dev (x 0) (x 1)
  | .turnoutCmdM =>
      .turnoutCmdM dev (Machine.turnoutOf (x 0) (x 1))
        (Machine.turnoutPos (x 1)) (Machine.turnoutActive (x 1))
  | .bcPwrOff => .bcPwrOff dev
  | .bcPwrOn => .bcPwrOn dev
  | .bcService => .bcService dev
  | .cvResult => .cvResult dev (x 0) (x 1)
  | .bcEstop => .bcEstop dev
  | .locoDrive14M => .locoDrive14M dev loco (x 2)
  | .locoDrive27M => .locoDrive27M dev loco (x 2)
  | .locoDrive28M => .locoDrive28M dev loco (x 2)
  | .locoDrive128M => .locoDrive128M dev loco (x 2)
  | .locoFuncG1M => .locoFuncG1M dev loco ((x 2).extractLsb' 0 5)
  | .locoFuncG2M => .locoFuncG2M dev loco ((x 2).extractLsb' 0 4)
  | .locoFuncG3M => .locoFuncG3M dev loco ((x 2).extractLsb' 0 4)
  | .locoFuncG4M => .locoFuncG4M dev loco (x 2)
  | .locoFuncG5M => .locoFuncG5M dev loco (x 2)
  | .ignored => .mdIgnored dev hdr d

/-- The data bytes of a Message: what stands between its header and its last byte (43_dispatcher.md R230). -/
def frameData (m : Message) : List Byte := (m.drop 2).dropLast

/-- A Message by a table, in the direction the class of its byte 0 names (30_encoding.md R117, 43_dispatcher.md R230). -/
def decodeFrameBy (t : Machine.HdrMap) (m : Message) : Except DecodeError Instr :=
  let cb := Machine.byteAt m 0
  let dev := Machine.cbAddr cb
  let hdr := Machine.byteAt m 1
  match Machine.cbClass cb with
  | .poll => .ok (decodeDm t dev hdr (frameData m))
  | .msg => .ok (decodeMd t dev hdr (frameData m))
  | .ackreq => .error (.notADirection .ackreq)
  | .reserved => .error (.notADirection .reserved)

/-- A Message by the default tables, those of the opcode table (30_encoding.md R118 to R121; assumption 5). -/
def decodeFrame (m : Message) : Except DecodeError Instr := decodeFrameBy Machine.defaultHdrMap m

/-- Decode, total on any bits. -/
def decode : Code → Except DecodeError Instr
  | .port e => .ok (decodePort e)
  | .frame m => decodeFrame m

/-- The Message `[cb] ++ encode(hdr, data)` (40_wire_codec.md R144). -/
def messageOf (cb hdr : Byte) (data : List Byte) : Message := cb :: Machine.encodeFrame hdr data

/-- A device's Message (30_encoding.md R118). -/
def dmCode (dev : DevAddr) (hdr : Byte) (data : List Byte) : Option Code :=
  some (.frame (messageOf (Machine.mkCb .poll dev) hdr data))

/-- A master's Message (30_encoding.md R120). -/
def mdCode (dev : DevAddr) (hdr : Byte) (data : List Byte) : Option Code :=
  some (.frame (messageOf (Machine.mkCb .msg dev) hdr data))

/-- A locomotive frame `E4 sub AH AL b` (30_encoding.md R122). -/
def locoData (sub : Byte) (loco : LocoAddr) (b : Byte) : List Byte :=
  [sub, Machine.locoHigh loco, Machine.locoLow loco, b]

/-- A host command at its port, unused arguments 0 (30_encoding.md R125). -/
def hostCode (op : BitVec 5) (arg0 : BitVec 16) (arg1 : BitVec 8) (arg2 : BitVec 18) : Option Code :=
  some (.port (.cmd { op := op, arg0 := arg0, arg1 := arg1, arg2 := arg2 }))

/-- The bits of an operation, from the encodings of 30_encoding.md; ignored bits are written as the CORE writes
them where it builds the frame, else 0 (assumption 17). An INTERNAL_OP row has no bits (R131). -/
def encode : Instr → Option Code
  | .cbPoll p a => some (.port (.rx true (Machine.rawCallByte .poll p a)))
  | .cbAckreq p a => some (.port (.rx true (Machine.rawCallByte .ackreq p a)))
  | .cbMsg p a => some (.port (.rx true (Machine.rawCallByte .msg p a)))
  | .cbReserved p a => some (.port (.rx true (Machine.rawCallByte .reserved p a)))
  | .ackResp dev => dmCode dev 0x20 []
  | .pwrServiceReq dev => dmCode dev 0x21 [0x10]
  | .devInit dev => dmCode dev 0x21 [0x21]
  | .pwrOffReq dev => dmCode dev 0x21 [0x80]
  | .pwrOnReq dev => dmCode dev 0x21 [0x81]
  | .cvReadDirect dev cv => dmCode dev 0x22 [0x15, cv]
  | .cvWriteDirect dev cv val => dmCode dev 0x23 [0x16, cv, val]
  | .turnoutStatusReq dev grp nib => dmCode dev 0x42 [grp, if nib then 0x01 else 0x00]
  | .turnoutCmd dev t pos act => dmCode dev 0x52 [Machine.turnoutGroup t, Machine.turnoutD1 t pos act]
  | .estopReq dev => dmCode dev 0x80 []
  | .locoInfoReq dev loco => dmCode dev 0xE3 [0x00, Machine.locoHigh loco, Machine.locoLow loco]
  | .locoFuncReq dev loco => dmCode dev 0xE3 [0x07, Machine.locoHigh loco, Machine.locoLow loco]
  | .locoDrive14 dev loco spd => dmCode dev 0xE4 (locoData 0x10 loco spd)
  | .locoDrive27 dev loco spd => dmCode dev 0xE4 (locoData 0x11 loco spd)
  | .locoDrive28 dev loco spd => dmCode dev 0xE4 (locoData 0x12 loco spd)
  | .locoDrive128 dev loco spd => dmCode dev 0xE4 (locoData 0x13 loco spd)
  | .locoFuncG1 dev loco fb => dmCode dev 0xE4 (locoData 0x20 loco (fb.setWidth 8))
  | .locoFuncG2 dev loco fb => dmCode dev 0xE4 (locoData 0x21 loco (fb.setWidth 8))
  | .locoFuncG3 dev loco fb => dmCode dev 0xE4 (locoData 0x22 loco (fb.setWidth 8))
  | .locoFuncG4 dev loco fb => dmCode dev 0xE4 (locoData 0x23 loco fb)
  | .locoFuncG5 dev loco fb => dmCode dev 0xE4 (locoData 0x28 loco fb)
  | .pomByte dev loco cv val =>
      dmCode dev 0xE6 (locoData 0x30 loco (Machine.pomMode 0b111011 cv) ++ [cv.extractLsb' 0 8, val])
  | .pomBit dev loco cv pos val =>
      dmCode dev 0xE6 (locoData 0x30 loco (Machine.pomMode 0b111010 cv) ++ [cv.extractLsb' 0 8, Machine.pomBitByte pos val])
  | .dmUnknown dev hdr data => dmCode dev hdr data
  | .turnoutFb dev d0 d1 => mdCode dev 0x42 [d0, d1]
  | .turnoutCmdM dev t pos act => mdCode dev 0x52 [Machine.turnoutGroup t, Machine.turnoutD1 t pos act]
  | .bcPwrOff dev => mdCode dev 0x61 [0x00]
  | .bcPwrOn dev => mdCode dev 0x61 [0x01]
  | .bcService dev => mdCode dev 0x61 [0x02]
  | .cvResult dev cv val => mdCode dev 0x63 [0x14, cv, val]
  | .bcEstop dev => mdCode dev 0x81 [0x00]
  | .locoDrive14M dev loco spd => mdCode dev 0xE4 (locoData 0x10 loco spd)
  | .locoDrive27M dev loco spd => mdCode dev 0xE4 (locoData 0x11 loco spd)
  | .locoDrive28M dev loco spd => mdCode dev 0xE4 (locoData 0x12 loco spd)
  | .locoDrive128M dev loco spd => mdCode dev 0xE4 (locoData 0x13 loco spd)
  | .locoFuncG1M dev loco fb => mdCode dev 0xE4 (locoData 0x20 loco (fb.setWidth 8))
  | .locoFuncG2M dev loco fb => mdCode dev 0xE4 (locoData 0x21 loco (fb.setWidth 8))
  | .locoFuncG3M dev loco fb => mdCode dev 0xE4 (locoData 0x22 loco (fb.setWidth 8))
  | .locoFuncG4M dev loco fb => mdCode dev 0xE4 (locoData 0x23 loco fb)
  | .locoFuncG5M dev loco fb => mdCode dev 0xE4 (locoData 0x28 loco fb)
  | .mdIgnored dev hdr data => mdCode dev hdr data
  | .setup a0 a1 a2 => hostCode 0 a0 a1 a2
  | .poll => hostCode 1 0 0 0
  | .setPower a0 => hostCode 2 a0 0 0
  | .getPower => hostCode 3 0 0 0
  | .getRole => hostCode 4 0 0 0
  | .locoClaim a0 => hostCode 5 a0 0 0
  | .locoBusyNote a0 => hostCode 6 a0 0 0
  | .pushDrive a0 a1 a2 => hostCode 7 a0 a1 a2
  | .pushFunc a0 a1 a2 => hostCode 8 a0 a1 a2
  | .getLocoInfo a0 => hostCode 9 a0 0 0
  | .getLocoFunc a0 => hostCode 10 a0 0 0
  | .pushTurnoutStatus a0 => hostCode 11 a0 0 0
  | .pushTurnoutCmd a0 a1 => hostCode 12 a0 a1 0
  | .setCvReadValue a0 a1 => hostCode 13 a0 a1 0
  | .setCvNack => hostCode 14 0 0 0
  | .setCvNackSc => hostCode 15 0 0 0
  | .pushFeedback a0 => hostCode 16 a0 0 0
  | .releaseSlot a0 => hostCode 17 a0 0 0
  | .pendTimeout a0 => hostCode 18 a0 0 0
  | .hostReserved op => hostCode op 0 0 0
  | .rxi mark b => some (.port (.rx mark b))
  | .txi => some (.port .txReady)
  | .computeChecksum _ _ | .verify _ | .callByteParity _ | .encodeFrame _ _ | .beginWrite _ | .appendByte _ _
  | .commit _ | .abortWrite _ | .tryRead _ | .isEmpty _ | .isFull _ | .enqueue _ | .requestBusy _ _ | .markBusy _ _
  | .release _ | .holder _ => none

/-- The code a table word stands for (assumption 14). A row of one byte is a host code when it is below 32 and a
marked call byte otherwise: the table gives both formats the same eight bits. A row of five bytes is a frame,
header in bits 39:32 (30_encoding.md R131): data bytes the word does not give are 0, the checksum is right, and
byte 0 names device 0, or the broadcast when only the master's table has a row for the word. -/
def tableCode (nbits w : Nat) : Option Code :=
  if nbits = 8 then
    if w < 32 then some (.port (.cmd { op := BitVec.ofNat 5 w, arg0 := 0, arg1 := 0, arg2 := 0 }))
    else if w < 256 then some (.port (.rx true (BitVec.ofNat 8 w)))
    else none
  else if nbits = 40 then
    let hdr : Byte := BitVec.ofNat 8 (w / 2 ^ 32)
    let given : List Byte := [24, 16, 8, 0].map fun k => BitVec.ofNat 8 (w / 2 ^ k)
    let data := (given ++ [0, 0, 0]).take (Machine.dataCount hdr)
    if 2 ^ 40 ≤ w ∨ Config.dataMax < Machine.dataCount hdr then none
    else if Machine.dmKind hdr data = .unknown ∧ Machine.mdKind hdr data ≠ .ignored then
      some (.frame (messageOf (Machine.mkCb .msg 0) hdr data))
    else some (.frame (messageOf (Machine.mkCb .poll 0) hdr data))
  else none

/-- The operation the decoder reads from a table word, none where it refuses. -/
def decodeTableWord (nbits w : Nat) : Option Instr :=
  match tableCode nbits w with
  | some c => (decode c).toOption
  | none => none

end Sys2Proof
end

