-- ==== Sys2Proof/Machine/Params.lean ====
section
/-! DEFINITION. The parameters the source leaves to the implementation (00_scope.md R10). -/

namespace Sys2Proof

open Machine

/-- The parameters the source leaves to the implementation (00_scope.md R10). They are data that no step writes,
so a statement about every state holds for every choice of them. -/
structure Params where
  /-- `CAP`: capacity of each ring, in Messages. -/
  cap : Nat
  /-- `T_WINDOW`: length of the transmission window, in time units. -/
  tWindow : Nat
  /-- `TIME_W`: width of the time source in bits. -/
  timeW : Nat
  /-- `SLAVE_CYCLE_MAX`: the slave-cycle timeout, in cycles. -/
  slaveCycleMax : Nat
  /-- `ABANDON_OPPS`: opportunities after which a pending request is abandoned. -/
  abandonOpps : Nat
  /-- `INIT_SEQ`: the header and data of the initialization sequence. -/
  initSeq : List Byte
  /-- `ACK_SEQ`, first byte. -/
  ack0 : Byte
  /-- `ACK_SEQ`, second byte. -/
  ack1 : Byte
  /-- `HDR_MAP`: headers and sub-codes, and where operands stand, of the frames received and of those built. -/
  hdrMap : HdrMap
  /-- `PWR_RESET`: the power state after reset and after SETUP. -/
  pwrReset : Power
  /-- `SYNC_LAG`: how many of its reader's steps an index copy may stay stale. -/
  syncLag : Nat
deriving DecidableEq, Repr

/-- The defaults of 00_scope.md R10. `T_WINDOW` has none there: 100, the value the vectors use, is a
DESIGN CHOICE (assumption 4), unsafe for a claim that would rest on it. -/
def Params.default : Params :=
  { cap := 5, tWindow := 100, timeW := 32, slaveCycleMax := 255, abandonOpps := 2,
    initSeq := [0x21, 0x21], ack0 := 0x20, ack1 := 0x20, hdrMap := defaultHdrMap, pwrReset := .normal, syncLag := 0 }

/-- The ranges of 00_scope.md R10, tables of `HDR_MAP` that agree with their headers (30_encoding.md R109), and
`T_WINDOW < 2^TIME_W` of 70_reset_and_hazards.md R389. -/
def Params.inRange (p : Params) : Bool :=
  decide (1 ≤ p.cap) && decide (1 ≤ p.tWindow) && decide (p.tWindow < 2 ^ p.timeW) && decide (8 ≤ p.timeW) &&
  decide (1 ≤ p.slaveCycleMax) && decide (p.slaveCycleMax ≤ 255) &&
  decide (1 ≤ p.abandonOpps) && decide (p.abandonOpps ≤ 255) &&
  decide (1 ≤ p.initSeq.length) && decide (p.initSeq.length ≤ 8) && p.hdrMap.inRange

end Sys2Proof
end

