-- ==== Sys2Proof/Machine/State.lean ====
section
/-! DEFINITION. The state of the CORE (10_state.md R20 to R50), its inputs and outputs, and its reset. -/

namespace Sys2Proof.Machine

/-- `RXA_ST`, the state of the frame parser (10_state.md R35). -/
inductive RxaState where
  | idle
  | header
  | body
  | skip
deriving DecidableEq, Repr

/-- One slot of a ring's store: a length and ten bytes (10_state.md R36). The length is 4 bits, 0..10; a Nat here (assumption 18). -/
structure MsgSlot where
  len : Nat
  bytes : List Byte
deriving DecidableEq, Repr

/-- A slot with every bit 0. DESIGN CHOICE (assumption 6): the reset contents, which R36 leaves unspecified. -/
def MsgSlot.zero : MsgSlot := { len := 0, bytes := List.replicate 10 0 }

/-- A ring buffer: store, indices, write cursor (10_state.md R36 to R38) and the copies of its indices that the
other side of the ring reads (R48). -/
structure Ring where
  /-- `Q_MEM`: `CAP` slots. -/
  mem : List MsgSlot
  /-- `Q_WR`, in `0..2*CAP-1`. -/
  wr : Nat
  /-- `Q_RD`, in `0..2*CAP-1`. -/
  rd : Nat
  /-- `Q_CUR_OPEN`. -/
  curOpen : Bool
  /-- `Q_CUR_POS`, 4 bits, 0..10; a Nat here (assumption 18). -/
  curPos : Nat
  /-- `Q_WR_SEEN`, the consumer's view of `Q_WR`. -/
  wrSeen : Nat
  /-- `Q_RD_SEEN`, the producer's view of `Q_RD`. -/
  rdSeen : Nat
  /-- The model's own (assumption 7): `Q_WR` as of the consumer's last `SYNC_LAG` steps, oldest first. -/
  wrPast : List Nat
  /-- The model's own (assumption 7): `Q_RD` as of the producer's last `SYNC_LAG` steps, oldest first. -/
  rdPast : List Nat
deriving DecidableEq, Repr

/-- An empty ring of capacity `cap` (10_state.md R50). -/
def Ring.empty (cap : Nat) : Ring :=
  { mem := List.replicate cap MsgSlot.zero, wr := 0, rd := 0, curOpen := false, curPos := 0,
    wrSeen := 0, rdSeen := 0, wrPast := [], rdPast := [] }

/-- A notification, as a typed record (30_encoding.md R128, 42_arbitrator.md R184). -/
inductive Notification where
  | power (p : Power)
  | drive (k : Steps) (loco : LocoAddr) (spd : Byte)
  | funcG1 (loco : LocoAddr) (fb : BitVec 5)
  | funcG2 (loco : LocoAddr) (fb : BitVec 4)
  | funcG3 (loco : LocoAddr) (fb : BitVec 4)
  | funcGen (loco : LocoAddr) (group : BitVec 3) (fb : Byte)
  | turnoutInfo (grp : Byte) (nib : Bool)
  | turnoutCmd (t : BitVec 10) (pos : Bool) (act : Bool)
  | feedback (d0 d1 : Byte)
  | cvRead (cv : Byte)
  | cvWrite (cv val : Byte)
  | pomByte (loco : LocoAddr) (cv : BitVec 10) (val : Byte)
  | pomBit (loco : LocoAddr) (cv : BitVec 10) (bitPos : BitVec 3) (bitVal : Bool)
  | locoInfoReq (loco : LocoAddr)
  | locoFuncReq (loco : LocoAddr)
deriving DecidableEq, Repr

/-- Status codes of the host command port (30_encoding.md R127). -/
inductive Status where
  | ok
  | eTxFull
  | ePending
  | eBusy
  | eBadArg
  | eNotSetup
deriving DecidableEq, Repr

/-- The error conditions (60_exceptions.md R341), in the order of their numbers. -/
inductive ErrCond where
  | checksum
  | framingLength
  | framingTruncated
  | unknownHdr
  | busy
  | pending
  | rxOverflow
  | txFull
  | roleDesync
  | cvFail
  | cvFailSc
  | cbParity
  | notSetup
  | badArg
deriving DecidableEq, Repr

/-- What an operation of an internal interface returns (assumption 15). -/
inductive OpResult where
  | none
  | bool (b : Bool)
  | byte (b : Byte)
  | bytes (bs : List Byte)
  | message (m : Option Message)
  | slot (s : Option Nat)
deriving DecidableEq, Repr

/-- What the latest step put on the output ports, and the conditions it raised (assumption 10). A port whose valid
signal is 0 holds no value here (93_implementation_defined.md U21). -/
structure Outputs where
  /-- `tx_valid` with `(tx_mark, tx_byte)` (42_arbitrator.md R181). -/
  tx : Option (Bool × Byte)
  /-- `tx_done` (R181). -/
  txDone : Bool
  /-- `(cmd_status, cmd_value)` (R183). -/
  cmd : Option (Status × Byte)
  /-- The notification events, oldest first (R184). -/
  ntf : List Notification
  /-- The conditions raised, oldest first (60_exceptions.md R340). -/
  raised : List ErrCond
  /-- The result of an internal operation (assumption 15). -/
  op : OpResult
deriving DecidableEq, Repr

/-- Nothing on any port (70_reset_and_hazards.md R381). -/
def Outputs.quiet : Outputs := { tx := none, txDone := false, cmd := none, ntf := [], raised := [], op := .none }

/-- The events that coincide at one moment, at most one per agent, and the time the timing source shows
(00_scope.md R17, 20_memory.md R88; assumption 2). -/
structure Instant where
  now : Nat
  rx : Option (Bool × Byte)
  txReady : Bool
  cmd : Option HostCmd
deriving DecidableEq, Repr

/-- The state (10_state.md R20 to R48), and the model's own fields `params`, `now`, `inputs`, `out`, `lagDraws`. -/
structure State where
  /-- The parameters (00_scope.md R10); no step writes them (assumption 4). -/
  params : Params
  /-- `SETUP_DONE` (R23). -/
  setupDone : Bool
  /-- `MY_ADDR` (R24). -/
  myAddr : DevAddr
  /-- `AUTO` (R25). -/
  auto : Bool
  /-- `STEPS_DEF` (R26). -/
  stepsDef : Steps
  /-- `NOTIFY_EN` (R27). -/
  notifyEn : BitVec 18
  /-- `ROLE` (R28). -/
  role : Role
  /-- `POLL_ADDR` (R29). -/
  pollAddr : DevAddr
  /-- `CALLBYTE` (R30). -/
  callByte : Byte
  /-- `MISS_CNT` (R31). -/
  missCnt : BitVec 8
  /-- `WIN_OPEN` (R32). -/
  winOpen : Bool
  /-- `WIN_T0`, `TIME_W` bits (R32). -/
  winT0 : Nat
  /-- `OPP_SEQ` (R33). -/
  oppSeq : BitVec 8
  /-- `CB_SEEN` (R34). -/
  cbSeen : Bool
  /-- `RXA_ST` (R35). -/
  rxaSt : RxaState
  /-- `RXA_REM` (R35). -/
  rxaRem : BitVec 4
  /-- `RXA_CB` (R35). -/
  rxaCb : Byte
  /-- The RX ring (R36, R37). -/
  rxRing : Ring
  /-- The TX ring (R38); its cursor is the model's own (assumption 9). -/
  txRing : Ring
  /-- `TX_ACTIVE` (R39). -/
  txActive : Bool
  /-- `TX_BUF`, ten bytes (R39). -/
  txBuf : List Byte
  /-- `TX_LEN`, 4 bits; a Nat here (R39, assumption 18). -/
  txLen : Nat
  /-- `TX_IDX`, 4 bits; a Nat here (R39, assumption 18). -/
  txIdx : Nat
  /-- `TX_MARK0` (R39). -/
  txMark0 : Bool
  /-- `TX_OPENS_WIN` (R39). -/
  txOpensWin : Bool
  /-- `SLOT[0..30]` (R41). -/
  slots : List (Option LocoAddr)
  /-- `PEND_INFO` (R43). -/
  pendInfo : Bool
  /-- `PEND_INFO_ADDR` (R43). -/
  pendInfoAddr : LocoAddr
  /-- `PEND_INFO_SEQ` (R43). -/
  pendInfoSeq : BitVec 8
  /-- `PEND_FUNC` (R44). -/
  pendFunc : Bool
  /-- `PEND_FUNC_ADDR` (R44). -/
  pendFuncAddr : LocoAddr
  /-- `PEND_FUNC_SEQ` (R44). -/
  pendFuncSeq : BitVec 8
  /-- `POWER` (R45). -/
  power : Power
  /-- `LAST_CV_VALID` (R46). -/
  lastCvValid : Bool
  /-- `LAST_CV_IDX` (R46). -/
  lastCvIdx : Byte
  /-- `LAST_CV_VAL` (R46). -/
  lastCvVal : Byte
  /-- The time sampled by the current step (00_scope.md R17; assumption 3). -/
  now : Nat
  /-- The events not yet taken (assumption 1). -/
  inputs : List Instant
  /-- What the latest step put out (assumption 10). -/
  out : Outputs
  /-- How many free values the index copies have drawn (assumption 7). -/
  lagDraws : Nat
deriving DecidableEq, Repr

/-- Why the machine stops with a fault: it never does. "None of these conditions halt the process", "no stuck state
and no fault state" (60_exceptions.md R352), so the type has no constructor. -/
inductive Fault where
deriving DecidableEq, Repr

/-- Why a step has no meaning. -/
inductive Refusal where
  /-- An arm of `exec` whose instruction has no meaning yet. Raised by no arm; safe. -/
  | notModelled (mnemonic : String)
deriving DecidableEq, Repr

/-- The machine after reset, for any choice of the parameters (10_state.md R50, 70_reset_and_hazards.md R380).
`RX_MEM`, `TX_MEM` and `TX_BUF` are unspecified there: zero is a DESIGN CHOICE (assumption 6). -/
def State.resetWith (p : Params) : State :=
  { params := p
    setupDone := false, myAddr := 0, auto := false, stepsDef := .s14, notifyEn := 0
    role := .idle, pollAddr := 0, callByte := 0x00, missCnt := 0, winOpen := false, winT0 := 0
    oppSeq := 0, cbSeen := false
    rxaSt := .idle, rxaRem := 0, rxaCb := 0x00
    rxRing := Ring.empty p.cap, txRing := Ring.empty p.cap
    txActive := false, txBuf := List.replicate 10 0, txLen := 0, txIdx := 0, txMark0 := false, txOpensWin := false
    slots := List.replicate Config.nslot none
    pendInfo := false, pendInfoAddr := 0, pendInfoSeq := 0
    pendFunc := false, pendFuncAddr := 0, pendFuncSeq := 0
    power := p.pwrReset, lastCvValid := false, lastCvIdx := 0, lastCvVal := 0
    now := 0, inputs := [], out := Outputs.quiet, lagDraws := 0 }

/-- The machine right after reset, with the default parameters (00_scope.md R10, 10_state.md R50). -/
def State.reset : State := State.resetWith Params.default

end Sys2Proof.Machine
end

