-- ==== Sys2Proof/Machine/Flags.lean ====
section
/-! DEFINITION. The flags, all pure functions of state (10_state.md R40, R47; 41_ring_buffers.md R165, R166, R169),
and the modular time difference (00_scope.md R17). -/

namespace Sys2Proof.Machine

/-- `(b - a) mod 2*CAP` of two ring indices (10_state.md R47). -/
def idxDist (cap a b : Nat) : Nat := (b + 2 * cap - a) % (2 * cap)

/-- `(p + 1) mod 2*CAP`, the only way an index advances (10_state.md R36). -/
def idxNext (cap p : Nat) : Nat := (p + 1) % (2 * cap)

/-- `isEmpty(Q)`, the consumer's test on its copy of the write index (41_ring_buffers.md R165). -/
def Ring.isEmpty (r : Ring) : Bool := r.wrSeen == r.rd

/-- `isFull(Q)`, the producer's test on its copy of the read index (41_ring_buffers.md R166). -/
def Ring.isFull (cap : Nat) (r : Ring) : Bool := idxDist cap r.rdSeen r.wr == cap

/-- `count(Q)`, the number of committed unread Messages (41_ring_buffers.md R169). -/
def Ring.count (cap : Nat) (r : Ring) : Nat := idxDist cap r.rd r.wr

/-- `RX_FULL` (10_state.md R47). -/
def State.rxFull (s : State) : Bool := s.rxRing.isFull s.params.cap

/-- `RX_EMPTY` (10_state.md R47). -/
def State.rxEmpty (s : State) : Bool := s.rxRing.isEmpty

/-- `TX_FULL` (10_state.md R47). -/
def State.txFull (s : State) : Bool := s.txRing.isFull s.params.cap

/-- `TX_EMPTY` (10_state.md R47). -/
def State.txEmpty (s : State) : Bool := s.txRing.isEmpty

/-- `DIR = TX_ACTIVE` (10_state.md R40). -/
def State.dir (s : State) : Bool := s.txActive

/-- `elapsed(t0) = (now - t0) mod 2^TIME_W` (00_scope.md R17). -/
def State.elapsed (s : State) (t0 : Nat) : Nat :=
  (s.now % 2 ^ s.params.timeW + 2 ^ s.params.timeW - t0 % 2 ^ s.params.timeW) % 2 ^ s.params.timeW

/-- `L`, the local slot, `MY_ADDR - 1` (44_slot_table.md R299). -/
def State.localSlot (s : State) : Nat := slotOfDev s.myAddr

/-- `HOSTCB`, byte 0 of a Message a host command enqueues (45_host_commands.md R307). -/
def State.hostCb (s : State) : Byte :=
  if s.role = .master then mkCb .msg 0 else mkCb .poll s.myAddr

end Sys2Proof.Machine
end

