-- ==== Sys2Proof/Machine/Frames.lean ====
section
/-! DEFINITION. The frames the CORE builds, header through checksum (30_encoding.md R122). Their headers, sub-codes and
operand positions are those of the parameter `HDR_MAP` (92_eei_decisions.md D13; assumption 5). -/

namespace Sys2Proof.Machine

/-- The power broadcast of a state; short circuit is announced as track power off (30_encoding.md R122, 45_host_commands.md R310). -/
def powerBroadcast (t : HdrMap) : Power → List Byte
  | .normal => t.built.bcPwrOn.build []
  | .estop => t.built.bcEstop.build []
  | .off => t.built.bcPwrOff.build []
  | .short => t.built.bcPwrOff.build []
  | .service => t.built.bcService.build []

/-- The request a device sends for a power state; there is none for short circuit (30_encoding.md R122, 45_host_commands.md R310). -/
def powerRequest (t : HdrMap) : Power → Option (List Byte)
  | .normal => some (t.built.pwrOnReq.build [])
  | .estop => some (t.built.estopReq.build [])
  | .off => some (t.built.pwrOffReq.build [])
  | .short => none
  | .service => some (t.built.serviceReq.build [])

/-- `F_NOT_UNDERSTOOD` (30_encoding.md R122). -/
def frameNotUnderstood (t : HdrMap) : List Byte := t.built.notUnderstood.build []

/-- `F_BUSY(A, S)` (30_encoding.md R122, 44_slot_table.md R296). -/
def frameBusy (t : HdrMap) (loco : LocoAddr) (holder : Nat) : List Byte :=
  t.built.busy.build [locoHigh loco, locoLow loco, BitVec.ofNat 8 holder]

/-- The template of `F_DRIVE` for a speed-step variant (30_encoding.md R122). -/
def BuiltFrames.drive (b : BuiltFrames) : Steps → FrameTemplate
  | .s14 => b.drive14
  | .s27 => b.drive27
  | .s28 => b.drive28
  | .s128 => b.drive128

/-- `F_DRIVE(k, A, SPD)` (30_encoding.md R122). -/
def frameDrive (t : HdrMap) (k : Steps) (loco : LocoAddr) (spd : Byte) : List Byte :=
  (t.built.drive k).build [locoHigh loco, locoLow loco, spd]

/-- The template of `F_FUNC` for a function group (30_encoding.md R122). -/
def BuiltFrames.func (b : BuiltFrames) : FuncGroup → FrameTemplate
  | .g1 => b.func1
  | .g2 => b.func2
  | .g3 => b.func3
  | .g4 => b.func4
  | .g5 => b.func5

/-- `F_FUNC(g, A, FB)` (30_encoding.md R122). -/
def frameFunc (t : HdrMap) (g : FuncGroup) (loco : LocoAddr) (fb : Byte) : List Byte :=
  (t.built.func g).build [locoHigh loco, locoLow loco, fb]

/-- `F_INFO_REQ(A)` (30_encoding.md R122). -/
def frameInfoReq (t : HdrMap) (loco : LocoAddr) : List Byte := t.built.infoReq.build [locoHigh loco, locoLow loco]

/-- `F_FUNC_REQ(A)` (30_encoding.md R122). -/
def frameFuncReq (t : HdrMap) (loco : LocoAddr) : List Byte := t.built.funcReq.build [locoHigh loco, locoLow loco]

/-- `F_TURNOUT_FB(a, d)` (30_encoding.md R122). -/
def frameTurnoutFb (t : HdrMap) (a d : Byte) : List Byte := t.built.turnoutFb.build [a, d]

/-- `F_TURNOUT_CMD(T, P, A)` (30_encoding.md R122). -/
def frameTurnoutCmd (t : HdrMap) (no : BitVec 10) (pos act : Bool) : List Byte :=
  t.built.turnoutCmd.build [turnoutGroup no, turnoutD1 no pos act]

/-- `F_CV_RESULT(cv, v)` (30_encoding.md R122). -/
def frameCvResult (t : HdrMap) (cv val : Byte) : List Byte := t.built.cvResult.build [cv, val]

/-- `F_CV_NACK` (30_encoding.md R122). -/
def frameCvNack (t : HdrMap) : List Byte := t.built.cvNack.build []

/-- `F_CV_NACK_SC` (30_encoding.md R122). -/
def frameCvNackSc (t : HdrMap) : List Byte := t.built.cvNackSc.build []

/-- `F_INIT`: `INIT_SEQ` then its checksum (30_encoding.md R122). -/
def frameInit (p : Params) : List Byte := p.initSeq ++ [xorBytes p.initSeq]

/-- `F_ACK`: `ACK_SEQ` (30_encoding.md R122, 42_arbitrator.md R189). -/
def frameAck (p : Params) : List Byte := [p.ack0, p.ack1]

end Sys2Proof.Machine
end

