-- ==== Sys2Proof/Machine/Ports.lean ====
section
/-! DEFINITION. Codes at the output ports: notification kinds and payloads (30_encoding.md R128, 42_arbitrator.md R184),
status codes (30_encoding.md R127), condition numbers (60_exceptions.md R341). -/

namespace Sys2Proof.Machine

/-- `ntf_kind`, which is also the kind's bit in `NOTIFY_EN` (30_encoding.md R128). -/
def Notification.kind : Notification → Nat
  | .power _ => 0
  | .drive .s14 _ _ => 1
  | .drive .s27 _ _ => 2
  | .drive .s28 _ _ => 3
  | .drive .s128 _ _ => 4
  | .funcG1 _ _ => 5
  | .funcG2 _ _ => 6
  | .funcG3 _ _ => 7
  | .funcGen _ _ _ => 8
  | .turnoutInfo _ _ => 9
  | .turnoutCmd _ _ _ => 10
  | .feedback _ _ => 11
  | .cvRead _ => 12
  | .cvWrite _ _ => 13
  | .pomByte _ _ _ => 14
  | .pomBit _ _ _ _ => 15
  | .locoInfoReq _ => 16
  | .locoFuncReq _ => 17

/-- `ntf_payload`: the fields in the order of 30_encoding.md R128, the last in the least significant bits, zeros on
the left (42_arbitrator.md R184). -/
def Notification.payload : Notification → BitVec 32
  | .power p => (powerCode p).setWidth 32
  | .drive _ loco spd => (loco ++ spd).setWidth 32
  | .funcG1 loco fb => (loco ++ fb).setWidth 32
  | .funcG2 loco fb => (loco ++ fb).setWidth 32
  | .funcG3 loco fb => (loco ++ fb).setWidth 32
  | .funcGen loco g fb => (loco ++ g ++ fb).setWidth 32
  | .turnoutInfo grp nib => (grp ++ BitVec.ofBool nib).setWidth 32
  | .turnoutCmd t pos act => (t ++ BitVec.ofBool pos ++ BitVec.ofBool act).setWidth 32
  | .feedback d0 d1 => (d0 ++ d1).setWidth 32
  | .cvRead cv => cv.setWidth 32
  | .cvWrite cv val => (cv ++ val).setWidth 32
  | .pomByte loco cv val => loco ++ cv ++ val
  | .pomBit loco cv pos val => (loco ++ cv ++ pos ++ BitVec.ofBool val).setWidth 32
  | .locoInfoReq loco => loco.setWidth 32
  | .locoFuncReq loco => loco.setWidth 32

/-- `cmd_status` (30_encoding.md R127). -/
def Status.code : Status → BitVec 3
  | .ok => 0
  | .eTxFull => 1
  | .ePending => 2
  | .eBusy => 3
  | .eBadArg => 4
  | .eNotSetup => 5

/-- The number of a condition (60_exceptions.md R341). -/
def ErrCond.number : ErrCond → Nat
  | .checksum => 1
  | .framingLength => 2
  | .framingTruncated => 3
  | .unknownHdr => 4
  | .busy => 5
  | .pending => 6
  | .rxOverflow => 7
  | .txFull => 8
  | .roleDesync => 9
  | .cvFail => 10
  | .cvFailSc => 11
  | .cbParity => 12
  | .notSetup => 13
  | .badArg => 14

/-- The condition a failing host command raises with its status (60_exceptions.md R341, 45_host_commands.md R306). -/
def Status.condition : Status → Option ErrCond
  | .ok => none
  | .eTxFull => some .txFull
  | .ePending => some .pending
  | .eBusy => some .busy
  | .eBadArg => some .badArg
  | .eNotSetup => some .notSetup

end Sys2Proof.Machine
end

