-- ==== Sys2Proof/Machine/Ops.lean ====
section
/-! DEFINITION. The shared operations: raising a condition, notifying, answering a host command, the rings, the frame
parser, the transmit engine, the transmission window, the Slot Table. -/

namespace Sys2Proof.Machine

/-! ### Raising, notifying, answering -/

/-- `raise <E>`: the condition is recorded; nothing else happens, no state is saved, no control transferred, and
there is no return (60_exceptions.md R340, R355, R356). The trap entry of this hardware, there being no other. -/
def State.raise (s : State) (e : ErrCond) : State :=
  { s with out := { s.out with raised := s.out.raised ++ [e] } }

/-- `emit NOTIFY(k, p)`: an event iff the kind is enabled; otherwise nothing (43_dispatcher.md R233). -/
def State.notify (s : State) (n : Notification) : State :=
  if s.notifyEn.getLsbD n.kind then { s with out := { s.out with ntf := s.out.ntf ++ [n] } } else s

/-- `return (status, value)` of a host command (00_scope.md R15). -/
def State.respond (s : State) (st : Status) (value : Byte) : State :=
  { s with out := { s.out with cmd := some (st, value) } }

/-- A host command that fails: the status is answered, its condition raised, no state changes (45_host_commands.md R306). -/
def State.failCmd (s : State) (st : Status) (value : Byte) : State :=
  match st.condition with
  | some e => (s.raise e).respond st value
  | none => s.respond st value

/-- The result of an internal operation (assumption 15). -/
def State.answer (s : State) (r : OpResult) : State := { s with out := { s.out with op := r } }

/-! ### Ring buffers (41_ring_buffers.md) -/

/-- The slot an index names, `p mod CAP` (20_memory.md R71). -/
def Ring.slotAt (cap : Nat) (r : Ring) (p : Nat) : MsgSlot := r.mem.getD (p % cap) MsgSlot.zero

/-- The Message of a slot: its first `len` bytes (41_ring_buffers.md R164, R167). -/
def MsgSlot.message (m : MsgSlot) : Message := m.bytes.take m.len

/-- `beginWrite(Q)`: none when full; else the cursor is open at position 0 (41_ring_buffers.md R160). -/
def Ring.beginWrite (cap : Nat) (r : Ring) : Option Ring :=
  if r.isFull cap then none else some { r with curOpen := true, curPos := 0 }

/-- `appendByte(Q, b)`; ignored with no cursor open or at position 10 (41_ring_buffers.md R161). -/
def Ring.appendByte (cap : Nat) (r : Ring) (b : Byte) : Ring :=
  if r.curOpen ∧ r.curPos < Config.msgMax then
    { r with
      mem := r.mem.modify (r.wr % cap) fun m => { m with bytes := m.bytes.set r.curPos b }
      curPos := r.curPos + 1 }
  else r

/-- `commit(Q)`; ignored with no cursor open (41_ring_buffers.md R162). With `SYNC_LAG = 0` the copy moves with the
index (10_state.md R48). -/
def Ring.commit (cap lag : Nat) (r : Ring) : Ring :=
  if r.curOpen then
    { r with
      mem := r.mem.modify (r.wr % cap) fun m => { m with len := r.curPos }
      wr := idxNext cap r.wr
      wrSeen := if lag = 0 then idxNext cap r.wr else r.wrSeen
      curOpen := false
      curPos := 0 }
  else r

/-- `abortWrite(Q)` (41_ring_buffers.md R163). -/
def Ring.abortWrite (r : Ring) : Ring := { r with curOpen := false, curPos := 0 }

/-- `tryRead(Q)`: the oldest complete Message and the ring without it, or none when empty (41_ring_buffers.md R164).
With `SYNC_LAG = 0` the copy moves with the index (10_state.md R48). -/
def Ring.tryRead (cap lag : Nat) (r : Ring) : Option (Message × Ring) :=
  if r.isEmpty then none
  else some ((r.slotAt cap r.rd).message,
    { r with rd := idxNext cap r.rd, rdSeen := if lag = 0 then idxNext cap r.rd else r.rdSeen })

/-- `enqueue(Q, m)`: none when full (41_ring_buffers.md R168). -/
def Ring.enqueue (cap lag : Nat) (r : Ring) (m : Message) : Option Ring :=
  match r.beginWrite cap with
  | none => none
  | some r1 => some ((m.foldl (fun r b => r.appendByte cap b) r1).commit cap lag)

/-- How far an index has advanced along a list of the values it held. -/
def travelled (cap : Nat) : List Nat → Nat
  | [] => 0
  | [_] => 0
  | a :: b :: vs => idxDist cap a b + travelled cap (b :: vs)

/-- How far behind its original a copy may be: as far as the original has advanced in the reader's last `lag` steps, and
never further than the copy was (10_state.md R48, 93_implementation_defined.md U3). -/
def allowedLag (cap lag orig seen : Nat) (past : List Nat) : Nat :=
  if lag = 0 then 0
  else if past.length < lag then idxDist cap seen orig
  else min (idxDist cap seen orig) (travelled cap (past ++ [orig]))

/-- A copy at a step of its reader: onward to any value the index held within the reader's last `lag` steps, by a free
amount, never backwards and never past the original (10_state.md R48, 93_implementation_defined.md U3; assumption 7). -/
def syncCopy (cap lag draw orig seen : Nat) (past : List Nat) : Nat :=
  if lag = 0 then orig
  else
    let behind := allowedLag cap lag orig seen past
    (seen + (idxDist cap seen orig - behind + draw % (behind + 1))) % (2 * cap)

/-- The record of the index at the reader's last `lag` steps, this one included. -/
def pastNext (lag orig : Nat) (past : List Nat) : List Nat :=
  (past ++ [orig]).drop (past.length + 1 - lag)

/-- The consumer's copy of the write index at a step of the consumer. -/
def Ring.syncWr (cap lag draw : Nat) (r : Ring) : Ring :=
  { r with wrSeen := syncCopy cap lag draw r.wr r.wrSeen r.wrPast, wrPast := pastNext lag r.wr r.wrPast }

/-- The producer's copy of the read index at a step of the producer. -/
def Ring.syncRd (cap lag draw : Nat) (r : Ring) : Ring :=
  { r with rdSeen := syncCopy cap lag draw r.rd r.rdSeen r.rdPast, rdPast := pastNext lag r.rd r.rdPast }

/-- A ring of the state. -/
def State.ring (s : State) : RingId → Ring
  | .rx => s.rxRing
  | .tx => s.txRing

/-- The state with one ring replaced. -/
def State.setRing (s : State) (q : RingId) (r : Ring) : State :=
  match q with
  | .rx => { s with rxRing := r }
  | .tx => { s with txRing := r }

/-- `enqueue(TX, m)`: none when the TX ring is full (41_ring_buffers.md R168). -/
def State.enqueueTx (s : State) (m : Message) : Option State :=
  (s.txRing.enqueue s.params.cap s.params.syncLag m).map fun r => s.setRing .tx r

/-- `tryRead(TX)`: the Message, if any, and the state after. -/
def State.readTx (s : State) : Option (Message × State) :=
  (s.txRing.tryRead s.params.cap s.params.syncLag).map fun x => (x.1, s.setRing .tx x.2)

/-- `tryRead(RX)`: the Message, if any, and the state after. -/
def State.readRx (s : State) : Option (Message × State) :=
  (s.rxRing.tryRead s.params.cap s.params.syncLag).map fun x => (x.1, s.setRing .rx x.2)

/-- `reply(cb, frame)`: a reply that finds the TX ring full is lost, `E_TX_FULL` (43_dispatcher.md R234). -/
def State.reply (s : State) (cb : Byte) (frame : List Byte) : State :=
  match s.enqueueTx (cb :: frame) with
  | some t => t
  | none => s.raise .txFull

/-! ### Frame parser (40_wire_codec.md R147 to R155) -/

/-- The discard of a Message in progress: `abortWrite(RX); RXA_ST <- IDLE`; a Message cut in its body raises
`E_FRAMING(truncated)` (40_wire_codec.md R147, R155). -/
def State.parserReset (s : State) : State :=
  let t := if s.rxaSt = .body then s.raise .framingTruncated else s
  { t with rxRing := t.rxRing.abortWrite, rxaSt := .idle }

/-- Arming: `RXA_ST <- HEADER; RXA_CB <- cb` (40_wire_codec.md R148). -/
def State.armParser (s : State) (cb : Byte) : State := { s with rxaSt := .header, rxaCb := cb }

/-- `complete()` (40_wire_codec.md R152). -/
def State.completeRx (s : State) : State :=
  { s with
    rxRing := s.rxRing.commit s.params.cap s.params.syncLag
    rxaSt := .idle
    winOpen := if s.role = .master then false else s.winOpen }

/-- `parse(b)` in state HEADER (40_wire_codec.md R149, R150, R154). -/
def State.parseHeader (s : State) (b : Byte) : State :=
  if Config.dataMax < dataCount b then { s.raise .framingLength with rxaSt := .skip }
  else
    match s.rxRing.beginWrite s.params.cap with
    | none => { s.raise .rxOverflow with rxaSt := .skip }
    | some r =>
        { s with
          rxRing := (r.appendByte s.params.cap s.rxaCb).appendByte s.params.cap b
          rxaRem := BitVec.ofNat 4 (dataCount b + 1)
          rxaSt := .body }

/-- `parse(b)` in state BODY (40_wire_codec.md R151). -/
def State.parseBody (s : State) (b : Byte) : State :=
  let t := { s with rxRing := s.rxRing.appendByte s.params.cap b, rxaRem := s.rxaRem - 1 }
  if t.rxaRem = 0 then t.completeRx else t

/-- `parse(b)` (40_wire_codec.md R149, R151, R153). -/
def State.parse (s : State) (b : Byte) : State :=
  match s.rxaSt with
  | .idle => s
  | .skip => s
  | .header => s.parseHeader b
  | .body => s.parseBody b

/-! ### Transmit engine and window (42_arbitrator.md R190, R199) -/

/-- `start_tx(bytes, mark0, opens_win)`; bytes of `TX_BUF` above the Message keep their values (42_arbitrator.md R190). -/
def State.startTx (s : State) (bytes : List Byte) (mark0 opensWin : Bool) : State :=
  { s with
    txBuf := (bytes ++ s.txBuf.drop bytes.length).take Config.msgMax
    txLen := bytes.length
    txIdx := 0
    txMark0 := mark0
    txOpensWin := opensWin
    txActive := true }

/-- `close_window()` (42_arbitrator.md R199). -/
def State.closeWindow (s : State) : State := { s with winOpen := false }.parserReset

/-! ### Slot Table (44_slot_table.md) -/

/-- Whether a slot other than `s` holds the address. -/
def heldByOther (slots : List (Option LocoAddr)) (s : Nat) (loco : LocoAddr) : Bool :=
  (List.range slots.length).any fun t => t != s && slots.getD t none == some loco

/-- `requestBusy(s, A)`: no other slot holds `A` (44_slot_table.md R291). -/
def requestBusy (slots : List (Option LocoAddr)) (s : Nat) (loco : LocoAddr) : Bool := !heldByOther slots s loco

/-- `markBusy(s, A)`: an older claim of `s` is overwritten (44_slot_table.md R292). -/
def markBusy (slots : List (Option LocoAddr)) (s : Nat) (loco : LocoAddr) : List (Option LocoAddr) :=
  if slots.getD s none = some loco then slots else slots.set s (some loco)

/-- `release(s)` (44_slot_table.md R293). -/
def release (slots : List (Option LocoAddr)) (s : Nat) : List (Option LocoAddr) := slots.set s none

/-- `holder(A)`: the slot that holds `A`, or none (44_slot_table.md R294). By R42 at most one does; in a state that
breaks R42 this is the lowest (DESIGN CHOICE, assumption 12). -/
def holder (slots : List (Option LocoAddr)) (loco : LocoAddr) : Option Nat :=
  (List.range slots.length).find? fun t => slots.getD t none == some loco

/-- `book(a, A)`: slot-busy bookkeeping; true when the command is granted. On refusal the busy notice goes to the
requester, and the Slot Table stays (43_dispatcher.md R235). The conditions stand in the order of 60_exceptions.md
R354 (DEDUCED, assumption 13). -/
def State.book (s : State) (dev : DevAddr) (loco : LocoAddr) : Bool × State :=
  if dev = 0 then (true, s)
  else if requestBusy s.slots (slotOfDev dev) loco then
    (true, { s with slots := markBusy s.slots (slotOfDev dev) loco })
  else
    match holder s.slots loco with
    | some t => (false, (s.raise .busy).reply (mkCb .msg dev) (frameBusy s.params.hdrMap loco t))
    | none => (false, s.raise .busy)

/-- `if book(a, A) then emit NOTIFY(n)` (43_dispatcher.md R248 to R256). -/
def State.bookedNotify (s : State) (dev : DevAddr) (loco : LocoAddr) (n : Notification) : State :=
  match s.book dev loco with
  | (true, t) => t.notify n
  | (false, t) => t

/-! ### Power, CV cache, pending requests -/

/-- `POWER <- p; emit NOTIFY(N_POWER, p)` (43_dispatcher.md R238 to R241, R261 to R264). -/
def State.powerNotify (s : State) (p : Power) : State := ({ s with power := p }).notify (.power p)

/-- `LAST_CV_VALID <- 1; LAST_CV_IDX <- CV; LAST_CV_VAL <- V` (43_dispatcher.md R243, R268). -/
def State.cacheCv (s : State) (cv val : Byte) : State :=
  { s with lastCvValid := true, lastCvIdx := cv, lastCvVal := val }

/-- A master's drive frame answers the info request for its address (43_dispatcher.md R269, R272). -/
def State.clearInfo (s : State) (loco : LocoAddr) : State :=
  if s.pendInfo ∧ s.pendInfoAddr = loco then { s with pendInfo := false } else s

/-- A master's function frame answers the function request for its address (43_dispatcher.md R270, R272). -/
def State.clearFunc (s : State) (loco : LocoAddr) : State :=
  if s.pendFunc ∧ s.pendFuncAddr = loco then { s with pendFunc := false } else s

/-- Continue after an outcome that is a next state. -/
def andThen (o : Host.Outcome State Fault Refusal) (k : State → State) : Host.Outcome State Fault Refusal :=
  match o with
  | .next s => .next (k s)
  | .fault r => .fault r
  | .refused r => .refused r

end Sys2Proof.Machine
end

