-- ==== Sys2Proof/Machine/CallBytes.lean ====
section
/-! DEFINITION. RXI: call bytes and data bytes received (42_arbitrator.md R185 to R189). -/

namespace Sys2Proof.Machine

/-- A received byte with mark 1: void before SETUP and while transmitting (42_arbitrator.md R185 lines 1, 2); ignored
entirely on bad parity; else `CB_SEEN`, the parser reset, and in Slave and SlaveInit role the class's reaction (R186, R211).
So a CORE that one POLL made SlaveInit can emit before its second POLL, where the derived 70_reset_and_hazards.md R381 says
that it emits nothing (DEDUCED, assumption 25). -/
def State.onCallByte (s : State) (cb : Byte) (react : State → State) : State :=
  if s.setupDone = false ∨ s.txActive = true then s
  else if cbOk cb = false then s.raise .cbParity
  else
    let t := { s with cbSeen := true }.parserReset
    if t.role = .slave ∨ t.role = .slaveInit then react t else t

/-- A transmit opportunity of a polled device: the oldest TX Message leaves without its call byte (42_arbitrator.md
R187, R205). Address 0 names no device (R189). -/
def State.reactPoll (a : DevAddr) (s : State) : State :=
  if a ≠ 0 ∧ a = s.myAddr then
    let t := { s with oppSeq := s.oppSeq + 1 }
    match t.readTx with
    | some (m, u) => u.startTx (m.drop 1) false false
    | none => t
  else s

/-- The parser is armed for a frame to this device or to all (42_arbitrator.md R188). -/
def State.reactMsg (cb : Byte) (a : DevAddr) (s : State) : State :=
  if a = 0 ∨ a = s.myAddr then s.armParser cb else s

/-- The fixed two-byte acknowledgement (42_arbitrator.md R189). -/
def State.reactAckreq (a : DevAddr) (s : State) : State :=
  if a ≠ 0 ∧ a = s.myAddr then s.startTx (frameAck s.params) false false else s

/-- `CB_POLL` (42_arbitrator.md R185, R186, R187). -/
def execCbPoll (p : Bool) (addr : DevAddr) (s : State) : Host.Outcome State Fault Refusal :=
  .next (s.onCallByte (rawCallByte .poll p addr) (State.reactPoll addr))

/-- `CB_ACKREQ` (42_arbitrator.md R185, R186, R189). -/
def execCbAckreq (p : Bool) (addr : DevAddr) (s : State) : Host.Outcome State Fault Refusal :=
  .next (s.onCallByte (rawCallByte .ackreq p addr) (State.reactAckreq addr))

/-- `CB_MSG` (42_arbitrator.md R185, R186, R188). -/
def execCbMsg (p : Bool) (addr : DevAddr) (s : State) : Host.Outcome State Fault Refusal :=
  .next (s.onCallByte (rawCallByte .msg p addr) (State.reactMsg (rawCallByte .msg p addr) addr))

/-- `CB_RESERVED`, class 0b11: `CB_SEEN` and the parser reset, nothing else (42_arbitrator.md R186, R189). -/
def execCbReserved (p : Bool) (addr : DevAddr) (s : State) : Host.Outcome State Fault Refusal :=
  .next (s.onCallByte (rawCallByte .reserved p addr) id)

/-- A received byte with mark 0: it restarts an open window's timer and goes to the parser (42_arbitrator.md R185). -/
def State.onDataByte (s : State) (b : Byte) : State :=
  if s.setupDone = false ∨ s.txActive = true then s
  else if s.role = .master ∧ s.winOpen then ({ s with winT0 := s.now }).parse b
  else s.parse b

/-- `RXI`: a byte with mark 1 is a call byte, by its class; one with mark 0 is a data byte (42_arbitrator.md R185). -/
def execRxi (mark : Bool) (b : Byte) (s : State) : Host.Outcome State Fault Refusal :=
  if mark then
    match cbClass b with
    | .poll => execCbPoll (cbParityBit b) (cbAddr b) s
    | .ackreq => execCbAckreq (cbParityBit b) (cbAddr b) s
    | .msg => execCbMsg (cbParityBit b) (cbAddr b) s
    | .reserved => execCbReserved (cbParityBit b) (cbAddr b) s
  else .next (s.onDataByte b)

end Sys2Proof.Machine
end

