-- ==== Sys2Proof/Machine/HostCommands.lean ====
section
/-! DEFINITION. The host commands but POLL (45_host_commands.md R305 to R325). The checks stand in the order of R306. -/

namespace Sys2Proof.Machine

/-- Check 2: every command but SETUP needs `SETUP_DONE` (45_host_commands.md R306). -/
def State.gated (s : State) (k : State) : State := if s.setupDone = false then s.failCmd .eNotSetup 0 else k

/-- Check 6 and the enqueue: `E_TX_FULL` with nothing changed, else the writes `k` on the state with the Message
`[HOSTCB] ++ frame` queued, then the result (45_host_commands.md R306, R307). -/
def State.pushFrame (s : State) (frame : List Byte) (value : Byte) (k : State → State) : State :=
  match s.enqueueTx (s.hostCb :: frame) with
  | none => s.failCmd .eTxFull 0
  | some t => (k t).respond .ok value

/-- A slot number as a result value; no slot reads 0xFF (45_host_commands.md R314). -/
def slotValue : Option Nat → Byte
  | some t => BitVec.ofNat 8 t
  | none => 0xFF

/-- `SETUP` (45_host_commands.md R305). The model's own fields keep their values. -/
def execSetup (arg0 : BitVec 16) (arg1 : BitVec 8) (arg2 : BitVec 18) (s : State) : Host.Outcome State Fault Refusal :=
  if 1 ≤ arg0.toNat ∧ arg0.toNat ≤ 31 then
    .next ({ State.resetWith s.params with
      myAddr := arg0.setWidth 5
      auto := arg1.getLsbD 2
      stepsDef := stepsOfCode (arg1.extractLsb' 0 2)
      notifyEn := arg2
      setupDone := true
      now := s.now
      inputs := s.inputs
      out := s.out
      lagDraws := s.lagDraws }.respond .ok 0)
  else .next (s.failCmd .eBadArg 0)

/-- `SET_POWER` (45_host_commands.md R310). -/
def execSetPower (arg0 : BitVec 16) (s : State) : Host.Outcome State Fault Refusal :=
  .next (s.gated (
    match powerOfCode arg0 with
    | none => s.failCmd .eBadArg 0
    | some p =>
        if s.role = .master then s.pushFrame (powerBroadcast s.params.hdrMap p) 0 fun t => { t with power := p }
        else
          match powerRequest s.params.hdrMap p with
          | none => s.failCmd .eBadArg 0
          | some f => s.pushFrame f 0 id))

/-- `GET_POWER` (45_host_commands.md R311). -/
def execGetPower (s : State) : Host.Outcome State Fault Refusal :=
  .next (s.gated (s.respond .ok ((powerCode s.power).setWidth 8)))

/-- `GET_ROLE` (45_host_commands.md R311). -/
def execGetRole (s : State) : Host.Outcome State Fault Refusal :=
  .next (s.gated (s.respond .ok ((roleCode s.role).setWidth 8)))

/-- `LOCO_CLAIM` (45_host_commands.md R312). -/
def execLocoClaim (arg0 : BitVec 16) (s : State) : Host.Outcome State Fault Refusal :=
  .next (s.gated (
    match locoArg arg0 with
    | none => s.failCmd .eBadArg 0
    | some loco =>
        if requestBusy s.slots s.localSlot loco then
          { s with slots := markBusy s.slots s.localSlot loco }.respond .ok (slotValue (some s.localSlot))
        else s.failCmd .eBusy (slotValue (holder s.slots loco))))

/-- `LOCO_BUSY_NOTE` (45_host_commands.md R314). -/
def execLocoBusyNote (arg0 : BitVec 16) (s : State) : Host.Outcome State Fault Refusal :=
  .next (s.gated (
    match locoArg arg0 with
    | none => s.failCmd .eBadArg 0
    | some loco =>
        match holder s.slots loco with
        | some t => s.pushFrame (frameBusy s.params.hdrMap loco t) (slotValue (some t)) id
        | none => s.respond .ok (slotValue none)))

/-- A drive or function push: as master the local slot must get the address, and claims it when the Message is
queued; otherwise the Slot Table is left alone (45_host_commands.md R313, 44_slot_table.md R299). -/
def State.pushClaimed (s : State) (loco : LocoAddr) (frame : List Byte) : State :=
  if s.role = .master then
    if requestBusy s.slots s.localSlot loco then
      s.pushFrame frame 0 fun t => { t with slots := markBusy t.slots t.localSlot loco }
    else s.failCmd .eBusy (slotValue (holder s.slots loco))
  else s.pushFrame frame 0 id

/-- `PUSH_DRIVE` (45_host_commands.md R313). -/
def execPushDrive (arg0 : BitVec 16) (arg1 : BitVec 8) (arg2 : BitVec 18) (s : State) :
    Host.Outcome State Fault Refusal :=
  .next (s.gated (
    match locoArg arg0, stepsOfSelector s.stepsDef arg2 with
    | some loco, some k => s.pushClaimed loco (frameDrive s.params.hdrMap k loco arg1)
    | _, _ => s.failCmd .eBadArg 0))

/-- `PUSH_FUNC` (45_host_commands.md R315). -/
def execPushFunc (arg0 : BitVec 16) (arg1 : BitVec 8) (arg2 : BitVec 18) (s : State) :
    Host.Outcome State Fault Refusal :=
  .next (s.gated (
    match locoArg arg0, groupOfSelector arg2 with
    | some loco, some g => s.pushClaimed loco (frameFunc s.params.hdrMap g loco (arg1 &&& groupMask g))
    | _, _ => s.failCmd .eBadArg 0))

/-- `GET_LOCO_INFO` (45_host_commands.md R316). -/
def execGetLocoInfo (arg0 : BitVec 16) (s : State) : Host.Outcome State Fault Refusal :=
  .next (s.gated (
    match locoArg arg0 with
    | none => s.failCmd .eBadArg 0
    | some loco =>
        if s.pendInfo then s.failCmd .ePending 0
        else s.pushFrame (frameInfoReq s.params.hdrMap loco) 0 fun t =>
          { t with pendInfo := true, pendInfoAddr := loco, pendInfoSeq := t.oppSeq }))

/-- `GET_LOCO_FUNC` (45_host_commands.md R317). -/
def execGetLocoFunc (arg0 : BitVec 16) (s : State) : Host.Outcome State Fault Refusal :=
  .next (s.gated (
    match locoArg arg0 with
    | none => s.failCmd .eBadArg 0
    | some loco =>
        if s.pendFunc then s.failCmd .ePending 0
        else s.pushFrame (frameFuncReq s.params.hdrMap loco) 0 fun t =>
          { t with pendFunc := true, pendFuncAddr := loco, pendFuncSeq := t.oppSeq }))

/-- `PUSH_TURNOUT_STATUS` (45_host_commands.md R318). -/
def execPushTurnoutStatus (arg0 : BitVec 16) (s : State) : Host.Outcome State Fault Refusal :=
  .next (s.gated (s.pushFrame (frameTurnoutFb s.params.hdrMap (argHigh arg0) (argLow arg0)) 0 id))

/-- `PUSH_TURNOUT_CMD` (45_host_commands.md R319). -/
def execPushTurnoutCmd (arg0 : BitVec 16) (arg1 : BitVec 8) (s : State) : Host.Outcome State Fault Refusal :=
  .next (s.gated (
    match turnoutArg arg0 with
    | none => s.failCmd .eBadArg 0
    | some t => s.pushFrame (frameTurnoutCmd s.params.hdrMap t (arg1.getLsbD 0) (arg1.getLsbD 1)) 0 id))

/-- `SET_CV_READ_VALUE` (45_host_commands.md R320). -/
def execSetCvReadValue (arg0 : BitVec 16) (arg1 : BitVec 8) (s : State) : Host.Outcome State Fault Refusal :=
  .next (s.gated (
    match cvArg arg0 with
    | none => s.failCmd .eBadArg 0
    | some cv => s.pushFrame (frameCvResult s.params.hdrMap cv arg1) 0 fun t => t.cacheCv cv arg1))

/-- `SET_CV_NACK`, error condition `E_CV_FAIL` (45_host_commands.md R322). -/
def execSetCvNack (s : State) : Host.Outcome State Fault Refusal :=
  .next (s.gated (s.pushFrame (frameCvNack s.params.hdrMap) 0 fun t => t.raise .cvFail))

/-- `SET_CV_NACK_SC`, error condition `E_CV_FAIL_SC` (45_host_commands.md R324). -/
def execSetCvNackSc (s : State) : Host.Outcome State Fault Refusal :=
  .next (s.gated (s.pushFrame (frameCvNackSc s.params.hdrMap) 0 fun t => t.raise .cvFailSc))

/-- `PUSH_FEEDBACK` (45_host_commands.md R321). -/
def execPushFeedback (arg0 : BitVec 16) (s : State) : Host.Outcome State Fault Refusal :=
  .next (s.gated (s.pushFrame (frameTurnoutFb s.params.hdrMap (argHigh arg0) (argLow arg0)) 0 id))

/-- `RELEASE_SLOT` (45_host_commands.md R325). -/
def execReleaseSlot (arg0 : BitVec 16) (s : State) : Host.Outcome State Fault Refusal :=
  .next (s.gated (
    if arg0.toNat ≤ 30 then { s with slots := release s.slots arg0.toNat }.respond .ok 0
    else s.failCmd .eBadArg 0))

/-- `PEND_TIMEOUT` (45_host_commands.md R323). -/
def execPendTimeout (arg0 : BitVec 16) (s : State) : Host.Outcome State Fault Refusal :=
  .next (s.gated (
    if arg0 = 0 then { s with pendInfo := false }.respond .ok 0
    else if arg0 = 1 then { s with pendFunc := false }.respond .ok 0
    else s.failCmd .eBadArg 0))

/-- Codes 19..31: `E_BAD_ARG`, before the check of `SETUP_DONE` (45_host_commands.md R306). -/
def execHostReserved (_op : BitVec 5) (s : State) : Host.Outcome State Fault Refusal :=
  .next (s.failCmd .eBadArg 0)

end Sys2Proof.Machine
end

