-- ==== Sys2Proof/Machine/Internal.lean ====
section
/-! DEFINITION. The operations of the internal interfaces, each run by itself; what it returns stands in `out.op`
(assumption 15). -/

namespace Sys2Proof.Machine

/-- `computeChecksum` (40_wire_codec.md R141). -/
def execComputeChecksum (hdr : Byte) (data : List Byte) (s : State) : Host.Outcome State Fault Refusal :=
  .next (s.answer (.byte (computeChecksum hdr data)))

/-- `verify` (40_wire_codec.md R142). -/
def execVerify (m : Message) (s : State) : Host.Outcome State Fault Refusal := .next (s.answer (.bool (verify m)))

/-- `callByteParity` (40_wire_codec.md R143). -/
def execCallByteParity (raw : Byte) (s : State) : Host.Outcome State Fault Refusal :=
  .next (s.answer (.byte (callByteParity raw)))

/-- `encode` (40_wire_codec.md R144). -/
def execEncodeFrame (hdr : Byte) (data : List Byte) (s : State) : Host.Outcome State Fault Refusal :=
  .next (s.answer (.bytes (encodeFrame hdr data)))

/-- `beginWrite(Q)` (41_ring_buffers.md R160). -/
def execBeginWrite (q : RingId) (s : State) : Host.Outcome State Fault Refusal :=
  match (s.ring q).beginWrite s.params.cap with
  | some r => .next ((s.setRing q r).answer (.bool true))
  | none => .next (s.answer (.bool false))

/-- `appendByte(Q, b)` (41_ring_buffers.md R161). -/
def execAppendByte (q : RingId) (b : Byte) (s : State) : Host.Outcome State Fault Refusal :=
  .next (s.setRing q ((s.ring q).appendByte s.params.cap b))

/-- `commit(Q)` (41_ring_buffers.md R162). -/
def execCommit (q : RingId) (s : State) : Host.Outcome State Fault Refusal :=
  .next (s.setRing q ((s.ring q).commit s.params.cap s.params.syncLag))

/-- `abortWrite(Q)` (41_ring_buffers.md R163). -/
def execAbortWrite (q : RingId) (s : State) : Host.Outcome State Fault Refusal :=
  .next (s.setRing q (s.ring q).abortWrite)

/-- `tryRead(Q)` (41_ring_buffers.md R164). -/
def execTryRead (q : RingId) (s : State) : Host.Outcome State Fault Refusal :=
  match (s.ring q).tryRead s.params.cap s.params.syncLag with
  | some x => .next ((s.setRing q x.2).answer (.message (some x.1)))
  | none => .next (s.answer (.message none))

/-- `isEmpty(Q)` (41_ring_buffers.md R165). -/
def execIsEmpty (q : RingId) (s : State) : Host.Outcome State Fault Refusal :=
  .next (s.answer (.bool (s.ring q).isEmpty))

/-- `isFull(Q)` (41_ring_buffers.md R166). -/
def execIsFull (q : RingId) (s : State) : Host.Outcome State Fault Refusal :=
  .next (s.answer (.bool ((s.ring q).isFull s.params.cap)))

/-- `enqueue(TX, m)` (41_ring_buffers.md R168). -/
def execEnqueue (m : Message) (s : State) : Host.Outcome State Fault Refusal :=
  match s.enqueueTx m with
  | some t => .next (t.answer (.bool true))
  | none => .next (s.answer (.bool false))

/-- `requestBusy(s, A)` (44_slot_table.md R291). -/
def execRequestBusy (slot : Fin 31) (loco : LocoAddr) (s : State) : Host.Outcome State Fault Refusal :=
  .next (s.answer (.bool (requestBusy s.slots slot.val loco)))

/-- `markBusy(s, A)` (44_slot_table.md R292). -/
def execMarkBusy (slot : Fin 31) (loco : LocoAddr) (s : State) : Host.Outcome State Fault Refusal :=
  .next { s with slots := markBusy s.slots slot.val loco }

/-- `release(s)` (44_slot_table.md R293). -/
def execRelease (slot : Fin 31) (s : State) : Host.Outcome State Fault Refusal :=
  .next { s with slots := release s.slots slot.val }

/-- `holder(A)` (44_slot_table.md R294). -/
def execHolder (loco : LocoAddr) (s : State) : Host.Outcome State Fault Refusal :=
  .next (s.answer (.slot (holder s.slots loco)))

end Sys2Proof.Machine
end

