-- ==== Sys2Proof/Machine/DeviceFrames.lean ====
section
/-! DEFINITION. The Dispatcher's kinds for Messages from polled devices (43_dispatcher.md R236 to R259). -/

namespace Sys2Proof.Machine

/-- `ACK_RESP`: no effect (43_dispatcher.md R236). -/
def execAckResp (_dev : DevAddr) (s : State) : Host.Outcome State Fault Refusal := .next s

/-- `DEV_INIT`: no effect (43_dispatcher.md R237). -/
def execDevInit (_dev : DevAddr) (s : State) : Host.Outcome State Fault Refusal := .next s

/-- A device's power request: cached, notified, broadcast to all (43_dispatcher.md R238 to R241). -/
def State.powerRequested (s : State) (p : Power) : State :=
  (s.powerNotify p).reply (mkCb .msg 0) (powerBroadcast s.params.hdrMap p)

/-- `PWR_ON_REQ` (43_dispatcher.md R238). -/
def execPwrOnReq (_dev : DevAddr) (s : State) : Host.Outcome State Fault Refusal := .next (s.powerRequested .normal)

/-- `PWR_OFF_REQ` (43_dispatcher.md R239). -/
def execPwrOffReq (_dev : DevAddr) (s : State) : Host.Outcome State Fault Refusal := .next (s.powerRequested .off)

/-- `PWR_SERVICE_REQ` (43_dispatcher.md R240). -/
def execPwrServiceReq (_dev : DevAddr) (s : State) : Host.Outcome State Fault Refusal := .next (s.powerRequested .service)

/-- `ESTOP_REQ` (43_dispatcher.md R241). -/
def execEstopReq (_dev : DevAddr) (s : State) : Host.Outcome State Fault Refusal := .next (s.powerRequested .estop)

/-- `CV_READ_DIRECT`: notified; the value is supplied later by the host (43_dispatcher.md R242). -/
def execCvReadDirect (_dev : DevAddr) (cv : Byte) (s : State) : Host.Outcome State Fault Refusal :=
  .next (s.notify (.cvRead cv))

/-- `CV_WRITE_DIRECT`: cached and notified (43_dispatcher.md R243). -/
def execCvWriteDirect (_dev : DevAddr) (cv val : Byte) (s : State) : Host.Outcome State Fault Refusal :=
  .next ((s.cacheCv cv val).notify (.cvWrite cv val))

/-- `TURNOUT_STATUS_REQ` (43_dispatcher.md R244). -/
def execTurnoutStatusReq (_dev : DevAddr) (grp : Byte) (nib : Bool) (s : State) : Host.Outcome State Fault Refusal :=
  .next (s.notify (.turnoutInfo grp nib))

/-- `TURNOUT_CMD` (43_dispatcher.md R245). -/
def execTurnoutCmd (_dev : DevAddr) (t : BitVec 10) (pos act : Bool) (s : State) : Host.Outcome State Fault Refusal :=
  .next (s.notify (.turnoutCmd t pos act))

/-- `LOCO_INFO_REQ`: notified, no slot bookkeeping (43_dispatcher.md R246). -/
def execLocoInfoReq (_dev : DevAddr) (loco : LocoAddr) (s : State) : Host.Outcome State Fault Refusal :=
  .next (s.notify (.locoInfoReq loco))

/-- `LOCO_FUNC_REQ` (43_dispatcher.md R247). -/
def execLocoFuncReq (_dev : DevAddr) (loco : LocoAddr) (s : State) : Host.Outcome State Fault Refusal :=
  .next (s.notify (.locoFuncReq loco))

/-- `LOCO_DRIVE_14` (43_dispatcher.md R248). -/
def execLocoDrive14 (dev : DevAddr) (loco : LocoAddr) (spd : Byte) (s : State) : Host.Outcome State Fault Refusal :=
  .next (s.bookedNotify dev loco (.drive .s14 loco spd))

/-- `LOCO_DRIVE_27` (43_dispatcher.md R249). -/
def execLocoDrive27 (dev : DevAddr) (loco : LocoAddr) (spd : Byte) (s : State) : Host.Outcome State Fault Refusal :=
  .next (s.bookedNotify dev loco (.drive .s27 loco spd))

/-- `LOCO_DRIVE_28` (43_dispatcher.md R250). -/
def execLocoDrive28 (dev : DevAddr) (loco : LocoAddr) (spd : Byte) (s : State) : Host.Outcome State Fault Refusal :=
  .next (s.bookedNotify dev loco (.drive .s28 loco spd))

/-- `LOCO_DRIVE_128` (43_dispatcher.md R251). -/
def execLocoDrive128 (dev : DevAddr) (loco : LocoAddr) (spd : Byte) (s : State) : Host.Outcome State Fault Refusal :=
  .next (s.bookedNotify dev loco (.drive .s128 loco spd))

/-- `LOCO_FUNC_G1` (43_dispatcher.md R252). -/
def execLocoFuncG1 (dev : DevAddr) (loco : LocoAddr) (fb : BitVec 5) (s : State) : Host.Outcome State Fault Refusal :=
  .next (s.bookedNotify dev loco (.funcG1 loco fb))

/-- `LOCO_FUNC_G2` (43_dispatcher.md R253). -/
def execLocoFuncG2 (dev : DevAddr) (loco : LocoAddr) (fb : BitVec 4) (s : State) : Host.Outcome State Fault Refusal :=
  .next (s.bookedNotify dev loco (.funcG2 loco fb))

/-- `LOCO_FUNC_G3` (43_dispatcher.md R254). -/
def execLocoFuncG3 (dev : DevAddr) (loco : LocoAddr) (fb : BitVec 4) (s : State) : Host.Outcome State Fault Refusal :=
  .next (s.bookedNotify dev loco (.funcG3 loco fb))

/-- `LOCO_FUNC_G4` (43_dispatcher.md R255). -/
def execLocoFuncG4 (dev : DevAddr) (loco : LocoAddr) (fb : Byte) (s : State) : Host.Outcome State Fault Refusal :=
  .next (s.bookedNotify dev loco (.funcGen loco 4 fb))

/-- `LOCO_FUNC_G5` (43_dispatcher.md R256). -/
def execLocoFuncG5 (dev : DevAddr) (loco : LocoAddr) (fb : Byte) (s : State) : Host.Outcome State Fault Refusal :=
  .next (s.bookedNotify dev loco (.funcGen loco 5 fb))

/-- `POM_BYTE`: notified, no cache, no slot bookkeeping (43_dispatcher.md R257). -/
def execPomByte (_dev : DevAddr) (loco : LocoAddr) (cv : BitVec 10) (val : Byte) (s : State) :
    Host.Outcome State Fault Refusal :=
  .next (s.notify (.pomByte loco cv val))

/-- `POM_BIT` (43_dispatcher.md R258). -/
def execPomBit (_dev : DevAddr) (loco : LocoAddr) (cv : BitVec 10) (bitPos : BitVec 3) (bitVal : Bool) (s : State) :
    Host.Outcome State Fault Refusal :=
  .next (s.notify (.pomBit loco cv bitPos bitVal))

/-- `DM_UNKNOWN`: the not-understood reply goes to the sender (43_dispatcher.md R259). -/
def execDmUnknown (dev : DevAddr) (_hdr : Byte) (_data : List Byte) (s : State) : Host.Outcome State Fault Refusal :=
  .next ((s.raise .unknownHdr).reply (mkCb .msg dev) (frameNotUnderstood s.params.hdrMap))

end Sys2Proof.Machine
end

