-- ==== Sys2Proof/Machine/MasterFrames.lean ====
section
/-! DEFINITION. The Dispatcher's kinds for Messages from a master (43_dispatcher.md R260 to R271). None replies, none
touches the Slot Table (R260). -/

namespace Sys2Proof.Machine

/-- `BC_PWR_ON` (43_dispatcher.md R261). -/
def execBcPwrOn (_dev : DevAddr) (s : State) : Host.Outcome State Fault Refusal := .next (s.powerNotify .normal)

/-- `BC_PWR_OFF` (43_dispatcher.md R262). -/
def execBcPwrOff (_dev : DevAddr) (s : State) : Host.Outcome State Fault Refusal := .next (s.powerNotify .off)

/-- `BC_SERVICE` (43_dispatcher.md R263). -/
def execBcService (_dev : DevAddr) (s : State) : Host.Outcome State Fault Refusal := .next (s.powerNotify .service)

/-- `BC_ESTOP` (43_dispatcher.md R264). -/
def execBcEstop (_dev : DevAddr) (s : State) : Host.Outcome State Fault Refusal := .next (s.powerNotify .estop)

/-- `TURNOUT_FB` (43_dispatcher.md R266). -/
def execTurnoutFb (_dev : DevAddr) (d0 d1 : Byte) (s : State) : Host.Outcome State Fault Refusal :=
  .next (s.notify (.feedback d0 d1))

/-- `TURNOUT_CMD_M` (43_dispatcher.md R267). -/
def execTurnoutCmdM (_dev : DevAddr) (t : BitVec 10) (pos act : Bool) (s : State) : Host.Outcome State Fault Refusal :=
  .next (s.notify (.turnoutCmd t pos act))

/-- `CV_RESULT`: cached, not notified (43_dispatcher.md R268). -/
def execCvResult (_dev : DevAddr) (cv val : Byte) (s : State) : Host.Outcome State Fault Refusal :=
  .next (s.cacheCv cv val)

/-- `LOCO_DRIVE_14_M` (43_dispatcher.md R269). -/
def execLocoDrive14M (_dev : DevAddr) (loco : LocoAddr) (spd : Byte) (s : State) : Host.Outcome State Fault Refusal :=
  .next ((s.notify (.drive .s14 loco spd)).clearInfo loco)

/-- `LOCO_DRIVE_27_M` (43_dispatcher.md R269). -/
def execLocoDrive27M (_dev : DevAddr) (loco : LocoAddr) (spd : Byte) (s : State) : Host.Outcome State Fault Refusal :=
  .next ((s.notify (.drive .s27 loco spd)).clearInfo loco)

/-- `LOCO_DRIVE_28_M` (43_dispatcher.md R269). -/
def execLocoDrive28M (_dev : DevAddr) (loco : LocoAddr) (spd : Byte) (s : State) : Host.Outcome State Fault Refusal :=
  .next ((s.notify (.drive .s28 loco spd)).clearInfo loco)

/-- `LOCO_DRIVE_128_M` (43_dispatcher.md R269). -/
def execLocoDrive128M (_dev : DevAddr) (loco : LocoAddr) (spd : Byte) (s : State) : Host.Outcome State Fault Refusal :=
  .next ((s.notify (.drive .s128 loco spd)).clearInfo loco)

/-- `LOCO_FUNC_G1_M` (43_dispatcher.md R270). -/
def execLocoFuncG1M (_dev : DevAddr) (loco : LocoAddr) (fb : BitVec 5) (s : State) : Host.Outcome State Fault Refusal :=
  .next ((s.notify (.funcG1 loco fb)).clearFunc loco)

/-- `LOCO_FUNC_G2_M` (43_dispatcher.md R270). -/
def execLocoFuncG2M (_dev : DevAddr) (loco : LocoAddr) (fb : BitVec 4) (s : State) : Host.Outcome State Fault Refusal :=
  .next ((s.notify (.funcG2 loco fb)).clearFunc loco)

/-- `LOCO_FUNC_G3_M` (43_dispatcher.md R270). -/
def execLocoFuncG3M (_dev : DevAddr) (loco : LocoAddr) (fb : BitVec 4) (s : State) : Host.Outcome State Fault Refusal :=
  .next ((s.notify (.funcG3 loco fb)).clearFunc loco)

/-- `LOCO_FUNC_G4_M` (43_dispatcher.md R270). -/
def execLocoFuncG4M (_dev : DevAddr) (loco : LocoAddr) (fb : Byte) (s : State) : Host.Outcome State Fault Refusal :=
  .next ((s.notify (.funcGen loco 4 fb)).clearFunc loco)

/-- `LOCO_FUNC_G5_M` (43_dispatcher.md R270). -/
def execLocoFuncG5M (_dev : DevAddr) (loco : LocoAddr) (fb : Byte) (s : State) : Host.Outcome State Fault Refusal :=
  .next ((s.notify (.funcGen loco 5 fb)).clearFunc loco)

/-- `MD_IGNORED`: no effect (43_dispatcher.md R271). -/
def execMdIgnored (_dev : DevAddr) (_hdr : Byte) (_data : List Byte) (s : State) : Host.Outcome State Fault Refusal :=
  .next s

end Sys2Proof.Machine
end

