-- ==== Sys2Proof/Machine/Poll.lean ====
section
/-! DEFINITION. POLL: draining, dispatch, the role machine and abandonment (42_arbitrator.md R194 to R222,
43_dispatcher.md R230, R231). -/

namespace Sys2Proof.Machine

/-- The effect of a decoded Message: the meaning of its FRAME row. `decodeFrameBy` answers no other row. -/
def runFrame (i : Instr) (s : State) : Host.Outcome State Fault Refusal :=
  match i with
  | .ackResp dev => execAckResp dev s
  | .pwrServiceReq dev => execPwrServiceReq dev s
  | .devInit dev => execDevInit dev s
  | .pwrOffReq dev => execPwrOffReq dev s
  | .pwrOnReq dev => execPwrOnReq dev s
  | .cvReadDirect dev cv => execCvReadDirect dev cv s
  | .cvWriteDirect dev cv val => execCvWriteDirect dev cv val s
  | .turnoutStatusReq dev grp nib => execTurnoutStatusReq dev grp nib s
  | .turnoutCmd dev t pos act => execTurnoutCmd dev t pos act s
  | .estopReq dev => execEstopReq dev s
  | .locoInfoReq dev loco => execLocoInfoReq dev loco s
  | .locoFuncReq dev loco => execLocoFuncReq dev loco s
  | .locoDrive14 dev loco spd => execLocoDrive14 dev loco spd s
  | .locoDrive27 dev loco spd => execLocoDrive27 dev loco spd s
  | .locoDrive28 dev loco spd => execLocoDrive28 dev loco spd s
  | .locoDrive128 dev loco spd => execLocoDrive128 dev loco spd s
  | .locoFuncG1 dev loco fb => execLocoFuncG1 dev loco fb s
  | .locoFuncG2 dev loco fb => execLocoFuncG2 dev loco fb s
  | .locoFuncG3 dev loco fb => execLocoFuncG3 dev loco fb s
  | .locoFuncG4 dev loco fb => execLocoFuncG4 dev loco fb s
  | .locoFuncG5 dev loco fb => execLocoFuncG5 dev loco fb s
  | .pomByte dev loco cv val => execPomByte dev loco cv val s
  | .pomBit dev loco cv bitPos bitVal => execPomBit dev loco cv bitPos bitVal s
  | .dmUnknown dev hdr data => execDmUnknown dev hdr data s
  | .turnoutFb dev d0 d1 => execTurnoutFb dev d0 d1 s
  | .turnoutCmdM dev t pos act => execTurnoutCmdM dev t pos act s
  | .bcPwrOff dev => execBcPwrOff dev s
  | .bcPwrOn dev => execBcPwrOn dev s
  | .bcService dev => execBcService dev s
  | .cvResult dev cv val => execCvResult dev cv val s
  | .bcEstop dev => execBcEstop dev s
  | .locoDrive14M dev loco spd => execLocoDrive14M dev loco spd s
  | .locoDrive27M dev loco spd => execLocoDrive27M dev loco spd s
  | .locoDrive28M dev loco spd => execLocoDrive28M dev loco spd s
  | .locoDrive128M dev loco spd => execLocoDrive128M dev loco spd s
  | .locoFuncG1M dev loco fb => execLocoFuncG1M dev loco fb s
  | .locoFuncG2M dev loco fb => execLocoFuncG2M dev loco fb s
  | .locoFuncG3M dev loco fb => execLocoFuncG3M dev loco fb s
  | .locoFuncG4M dev loco fb => execLocoFuncG4M dev loco fb s
  | .locoFuncG5M dev loco fb => execLocoFuncG5M dev loco fb s
  | .mdIgnored dev hdr data => execMdIgnored dev hdr data s
  | .cbPoll _ _ | .cbAckreq _ _ | .cbMsg _ _ | .cbReserved _ _ | .setup _ _ _ | .poll | .setPower _ | .getPower
  | .getRole | .locoClaim _ | .locoBusyNote _ | .pushDrive _ _ _ | .pushFunc _ _ _ | .getLocoInfo _
  | .getLocoFunc _ | .pushTurnoutStatus _ | .pushTurnoutCmd _ _ | .setCvReadValue _ _ | .setCvNack
  | .setCvNackSc | .pushFeedback _ | .releaseSlot _ | .pendTimeout _ | .hostReserved _ | .rxi _ _ | .txi
  | .computeChecksum _ _ | .verify _ | .callByteParity _ | .encodeFrame _ _ | .beginWrite _ | .appendByte _ _
  | .commit _ | .abortWrite _ | .tryRead _ | .isEmpty _ | .isFull _ | .enqueue _ | .requestBusy _ _
  | .markBusy _ _ | .release _ | .holder _ => .next s

/-- `dispatch(x)`, by the parameter `HDR_MAP`: a Message whose byte 0 names no direction is discarded (43_dispatcher.md R230). -/
def dispatch (m : Message) (s : State) : Host.Outcome State Fault Refusal :=
  match decodeFrameBy s.params.hdrMap m with
  | .ok i => runFrame i s
  | .error _ => .next s

/-- POLL line 1: at most one Message is drained; it is dispatched if it verifies, else dropped (42_arbitrator.md R195,
43_dispatcher.md R231). -/
def drain (s : State) : Host.Outcome State Fault Refusal :=
  match s.readRx with
  | none => .next s
  | some (m, t) => if verify m then dispatch m t else .next (t.raise .checksum)

/-- `idle_step()` (42_arbitrator.md R196). -/
def State.idleStep (s : State) : State :=
  { s with role := if s.auto ∧ s.cbSeen then .slaveInit else .master, cbSeen := false, missCnt := 0 }

/-- `next_addr(a) = 1 if a >= 31 else a + 1` (10_state.md R29, 42_arbitrator.md R202). -/
def nextAddr (a : DevAddr) : DevAddr := if 31 ≤ a.toNat then 1 else a + 1

/-- Byte 0 of a Message sent in the self slot: its own when it is a master's call byte, else the broadcast's
(42_arbitrator.md R203). -/
def selfCallByte (m : Message) : Byte :=
  if cbClass (byteAt m 0) = .msg then byteAt m 0 else mkCb .msg 0

/-- `self_slot()` (42_arbitrator.md R203). -/
def State.selfSlot (s : State) : State :=
  let t := { s with oppSeq := s.oppSeq + 1 }
  match t.readTx with
  | some (m, u) => u.startTx (selfCallByte m :: m.drop 1) true false
  | none => t

/-- Lines 4 and 5 of `master_step()`: the next address is served (42_arbitrator.md R198, R202). -/
def State.serveNext (s : State) : State :=
  let t := { s with pollAddr := nextAddr s.pollAddr }
  if t.pollAddr = t.myAddr then t.selfSlot
  else { t with callByte := mkCb .poll t.pollAddr }.startTx [mkCb .poll t.pollAddr] true true

/-- Lines 2 to 5 of `master_step()` (42_arbitrator.md R198, R201). -/
def State.masterSlot (s : State) : State :=
  if s.txActive then s
  else if s.winOpen then
    if s.elapsed s.winT0 < s.params.tWindow then s else s.closeWindow.serveNext
  else s.serveNext

/-- `master_step()` (42_arbitrator.md R198, R200). -/
def State.masterStep (s : State) : State :=
  if s.cbSeen then
    let t := { s with cbSeen := false }
    if t.auto then { t with role := .slaveInit, missCnt := 0 }.closeWindow else t.masterSlot
  else s.masterSlot

/-- `slaveinit_step()` (42_arbitrator.md R210). The parser stays as it is: R210 does not write it and R199 names only the
transitions Master to SlaveInit and Slave to Master, while 10_state.md R35 and 40_wire_codec.md R155 say "changes role"
without naming which (DEDUCED, assumption 24). -/
def State.slaveInitStep (s : State) : State :=
  let t := s.reply (mkCb .poll s.myAddr) (frameInit s.params)
  { t with role := .slave, missCnt := 0, winT0 := t.now }

/-- `min(255, MISS_CNT + 1)` (42_arbitrator.md R212). -/
def missNext (c : BitVec 8) : BitVec 8 := if c = 255 then 255 else c + 1

/-- Line 1 of `slave_step()`: the missing-poll counter (42_arbitrator.md R212, R218). -/
def State.countCycle (s : State) : State :=
  if s.cbSeen then { s with cbSeen := false, missCnt := 0, winT0 := s.now }
  else if s.params.tWindow ≤ s.elapsed s.winT0 then { s with winT0 := s.now, missCnt := missNext s.missCnt }
  else s

/-- `slave_step()` (42_arbitrator.md R212, R216). Where the takeover cuts a Message the record holds E_FRAMING(truncated),
then E_ROLE_DESYNC: no rule places the second raise, and 60_exceptions.md R354 says "a truncation plus a later one"
(DEDUCED, assumption 13). -/
def State.slaveStep (s : State) : State :=
  let t := s.countCycle
  if t.auto ∧ t.params.slaveCycleMax ≤ t.missCnt.toNat then
    { t with role := .master, missCnt := 0 }.closeWindow.raise .roleDesync
  else t

/-- POLL line 2 (42_arbitrator.md R195). -/
def State.roleStep (s : State) : State :=
  match s.role with
  | .idle => s.idleStep
  | .master => s.masterStep
  | .slaveInit => s.slaveInitStep
  | .slave => s.slaveStep

/-- Whether a request recorded at `seq` is abandoned (42_arbitrator.md R222). -/
def State.stale (s : State) (seq : BitVec 8) : Bool := decide (s.params.abandonOpps ≤ (s.oppSeq - seq).toNat)

/-- `abandon()` (42_arbitrator.md R222). -/
def State.abandon (s : State) : State :=
  { s with
    pendInfo := s.pendInfo && !s.stale s.pendInfoSeq
    pendFunc := s.pendFunc && !s.stale s.pendFuncSeq }

/-- At most two conditions are recorded after the first `n`: "One step can raise at most two conditions"
(60_exceptions.md R354). Where the raising rules name more the first two stay (DESIGN CHOICE, assumption 13). -/
def State.limitRaised (n : Nat) (s : State) : State :=
  { s with out := { s.out with raised := s.out.raised.take (n + 2) } }

/-- `POLL` (42_arbitrator.md R195, 45_host_commands.md R308). -/
def execPoll (s : State) : Host.Outcome State Fault Refusal :=
  if s.setupDone = false then .next (s.failCmd .eNotSetup 0)
  else andThen (drain s) fun t =>
    (t.roleStep.abandon.respond .ok 0).limitRaised s.out.raised.length

end Sys2Proof.Machine
end

