-- ==== Sys2Proof/Machine/Transmit.lean ====
section
/-! DEFINITION. TXI: the transmitter-ready step (42_arbitrator.md R192). -/

namespace Sys2Proof.Machine

/-- The next byte of the Message in flight, with mark 1 exactly on a leading call byte (42_arbitrator.md R192 line 2). -/
def State.sendByte (s : State) : State :=
  { s with
    out := { s.out with tx := some (s.txMark0 && s.txIdx == 0, byteAt s.txBuf s.txIdx) }
    txIdx := s.txIdx + 1 }

/-- The end of a transmission: `tx_done`, and the window of a polled device opens (42_arbitrator.md R192 line 3). -/
def State.endTx (s : State) : State :=
  let t := { s with txActive := false, out := { s.out with txDone := true } }
  let u := if s.txOpensWin ∧ s.role = .master then
      { t with winOpen := true, winT0 := t.now }.armParser t.callByte
    else t
  { u with txOpensWin := false }

/-- `TXI` (42_arbitrator.md R192). -/
def execTxi (s : State) : Host.Outcome State Fault Refusal :=
  if s.setupDone = false ∨ s.txActive = false then .next s
  else if s.txIdx < s.txLen then .next s.sendByte
  else .next s.endTx

end Sys2Proof.Machine
end

