-- ==== Sys2Proof/Machine/Dispatch.lean ====
section
/-! DEFINITION. exec: the meaning of each operation of the opcode table. -/

namespace Sys2Proof.Machine

def exec (i : Instr) (s : State) : Host.Outcome State Fault Refusal :=
  match i with
  | .cbPoll p addr => Sys2Proof.Machine.execCbPoll p addr s
  | .cbAckreq p addr => Sys2Proof.Machine.execCbAckreq p addr s
  | .cbMsg p addr => Sys2Proof.Machine.execCbMsg p addr s
  | .cbReserved p addr => Sys2Proof.Machine.execCbReserved p addr s
  | .ackResp dev => Sys2Proof.Machine.execAckResp dev s
  | .pwrServiceReq dev => Sys2Proof.Machine.execPwrServiceReq dev s
  | .devInit dev => Sys2Proof.Machine.execDevInit dev s
  | .pwrOffReq dev => Sys2Proof.Machine.execPwrOffReq dev s
  | .pwrOnReq dev => Sys2Proof.Machine.execPwrOnReq dev s
  | .cvReadDirect dev cv => Sys2Proof.Machine.execCvReadDirect dev cv s
  | .cvWriteDirect dev cv val => Sys2Proof.Machine.execCvWriteDirect dev cv val s
  | .turnoutStatusReq dev grp nib => Sys2Proof.Machine.execTurnoutStatusReq dev grp nib s
  | .turnoutCmd dev t pos act => Sys2Proof.Machine.execTurnoutCmd dev t pos act s
  | .estopReq dev => Sys2Proof.Machine.execEstopReq dev s
  | .locoInfoReq dev loco => Sys2Proof.Machine.execLocoInfoReq dev loco s
  | .locoFuncReq dev loco => Sys2Proof.Machine.execLocoFuncReq dev loco s
  | .locoDrive14 dev loco spd => Sys2Proof.Machine.execLocoDrive14 dev loco spd s
  | .locoDrive27 dev loco spd => Sys2Proof.Machine.execLocoDrive27 dev loco spd s
  | .locoDrive28 dev loco spd => Sys2Proof.Machine.execLocoDrive28 dev loco spd s
  | .locoDrive128 dev loco spd => Sys2Proof.Machine.execLocoDrive128 dev loco spd s
  | .locoFuncG1 dev loco fb => Sys2Proof.Machine.execLocoFuncG1 dev loco fb s
  | .locoFuncG2 dev loco fb => Sys2Proof.Machine.execLocoFuncG2 dev loco fb s
  | .locoFuncG3 dev loco fb => Sys2Proof.Machine.execLocoFuncG3 dev loco fb s
  | .locoFuncG4 dev loco fb => Sys2Proof.Machine.execLocoFuncG4 dev loco fb s
  | .locoFuncG5 dev loco fb => Sys2Proof.Machine.execLocoFuncG5 dev loco fb s
  | .pomByte dev loco cv val => Sys2Proof.Machine.execPomByte dev loco cv val s
  | .pomBit dev loco cv bitPos bitVal => Sys2Proof.Machine.execPomBit dev loco cv bitPos bitVal s
  | .dmUnknown dev hdr data => Sys2Proof.Machine.execDmUnknown dev hdr data s
  | .turnoutFb dev d0 d1 => Sys2Proof.Machine.execTurnoutFb dev d0 d1 s
  | .turnoutCmdM dev t pos act => Sys2Proof.Machine.execTurnoutCmdM dev t pos act s
  | .bcPwrOff dev => Sys2Proof.Machine.execBcPwrOff dev s
  | .bcPwrOn dev => Sys2Proof.Machine.execBcPwrOn dev s
  | .bcService dev => Sys2Proof.Machine.execBcService dev s
  | .cvResult dev cv val => Sys2Proof.Machine.execCvResult dev cv val s
  | .bcEstop dev => Sys2Proof.Machine.execBcEstop dev s
  | .locoDrive14M dev loco spd => Sys2Proof.Machine.execLocoDrive14M dev loco spd s
  | .locoDrive27M dev loco spd => Sys2Proof.Machine.execLocoDrive27M dev loco spd s
  | .locoDrive28M dev loco spd => Sys2Proof.Machine.execLocoDrive28M dev loco spd s
  | .locoDrive128M dev loco spd => Sys2Proof.Machine.execLocoDrive128M dev loco spd s
  | .locoFuncG1M dev loco fb => Sys2Proof.Machine.execLocoFuncG1M dev loco fb s
  | .locoFuncG2M dev loco fb => Sys2Proof.Machine.execLocoFuncG2M dev loco fb s
  | .locoFuncG3M dev loco fb => Sys2Proof.Machine.execLocoFuncG3M dev loco fb s
  | .locoFuncG4M dev loco fb => Sys2Proof.Machine.execLocoFuncG4M dev loco fb s
  | .locoFuncG5M dev loco fb => Sys2Proof.Machine.execLocoFuncG5M dev loco fb s
  | .mdIgnored dev hdr data => Sys2Proof.Machine.execMdIgnored dev hdr data s
  | .setup arg0 arg1 arg2 => Sys2Proof.Machine.execSetup arg0 arg1 arg2 s
  | .poll => Sys2Proof.Machine.execPoll s
  | .setPower arg0 => Sys2Proof.Machine.execSetPower arg0 s
  | .getPower => Sys2Proof.Machine.execGetPower s
  | .getRole => Sys2Proof.Machine.execGetRole s
  | .locoClaim arg0 => Sys2Proof.Machine.execLocoClaim arg0 s
  | .locoBusyNote arg0 => Sys2Proof.Machine.execLocoBusyNote arg0 s
  | .pushDrive arg0 arg1 arg2 => Sys2Proof.Machine.execPushDrive arg0 arg1 arg2 s
  | .pushFunc arg0 arg1 arg2 => Sys2Proof.Machine.execPushFunc arg0 arg1 arg2 s
  | .getLocoInfo arg0 => Sys2Proof.Machine.execGetLocoInfo arg0 s
  | .getLocoFunc arg0 => Sys2Proof.Machine.execGetLocoFunc arg0 s
  | .pushTurnoutStatus arg0 => Sys2Proof.Machine.execPushTurnoutStatus arg0 s
  | .pushTurnoutCmd arg0 arg1 => Sys2Proof.Machine.execPushTurnoutCmd arg0 arg1 s
  | .setCvReadValue arg0 arg1 => Sys2Proof.Machine.execSetCvReadValue arg0 arg1 s
  | .setCvNack => Sys2Proof.Machine.execSetCvNack s
  | .setCvNackSc => Sys2Proof.Machine.execSetCvNackSc s
  | .pushFeedback arg0 => Sys2Proof.Machine.execPushFeedback arg0 s
  | .releaseSlot arg0 => Sys2Proof.Machine.execReleaseSlot arg0 s
  | .pendTimeout arg0 => Sys2Proof.Machine.execPendTimeout arg0 s
  | .hostReserved op => Sys2Proof.Machine.execHostReserved op s
  | .rxi mark b => Sys2Proof.Machine.execRxi mark b s
  | .txi => Sys2Proof.Machine.execTxi s
  | .computeChecksum hdr data => Sys2Proof.Machine.execComputeChecksum hdr data s
  | .verify m => Sys2Proof.Machine.execVerify m s
  | .callByteParity raw => Sys2Proof.Machine.execCallByteParity raw s
  | .encodeFrame hdr data => Sys2Proof.Machine.execEncodeFrame hdr data s
  | .beginWrite q => Sys2Proof.Machine.execBeginWrite q s
  | .appendByte q b => Sys2Proof.Machine.execAppendByte q b s
  | .commit q => Sys2Proof.Machine.execCommit q s
  | .abortWrite q => Sys2Proof.Machine.execAbortWrite q s
  | .tryRead q => Sys2Proof.Machine.execTryRead q s
  | .isEmpty q => Sys2Proof.Machine.execIsEmpty q s
  | .isFull q => Sys2Proof.Machine.execIsFull q s
  | .enqueue m => Sys2Proof.Machine.execEnqueue m s
  | .requestBusy sl loco => Sys2Proof.Machine.execRequestBusy sl loco s
  | .markBusy sl loco => Sys2Proof.Machine.execMarkBusy sl loco s
  | .release sl => Sys2Proof.Machine.execRelease sl s
  | .holder loco => Sys2Proof.Machine.execHolder loco s

end Sys2Proof.Machine
end

