-- ==== Sys2Proof/Machine/Fetch.lean ====
section
/-! DEFINITION. Taking the next event from the inputs (assumption 1), in the order RXI, TXI, HOST when events coincide
(20_memory.md R88), and placing an event there. -/

namespace Sys2Proof.Machine

/-- The event of an instant that is taken first, and the instant without it (20_memory.md R88, 60_exceptions.md R354). -/
def Instant.take (t : Instant) : Option (PortEvent × Instant) :=
  match t.rx with
  | some (mark, b) => some (.rx mark b, { t with rx := none })
  | none =>
    if t.txReady then some (.txReady, { t with txReady := false })
    else
      match t.cmd with
      | some c => some (.cmd c, { t with cmd := none })
      | none => none

/-- The next event, its time, and the inputs without it; instants with no event left are passed over. -/
def nextEvent : List Instant → Option (Nat × PortEvent × List Instant)
  | [] => none
  | t :: ts =>
    match t.take with
    | some (e, t') => some (t.now, e, t' :: ts)
    | none => nextEvent ts

/-- The consumer's copy of TX_WR moves in a step of RXI as a polled device and in a step of HOST as master
(20_memory.md R80). -/
def readsTx (role : Role) (e : PortEvent) : Bool :=
  match role, e with
  | .master, .cmd _ => true
  | .slave, .rx _ _ => true
  | .slaveInit, .rx _ _ => true
  | _, _ => false

/-- The index copies the agent of an event reads, brought forward at the start of its step (10_state.md R48, 20_memory.md
R80, R84; assumption 7). RXI reads RX_RD, HOST reads RX_WR and TX_RD; TX_WR is `readsTx`. -/
def State.syncCopies (s : State) (e : PortEvent) : State :=
  let cap := s.params.cap
  let lag := s.params.syncLag
  let draw := fun k => Config.syncChoice (s.lagDraws + k)
  let tx1 := if readsTx s.role e then s.txRing.syncWr cap lag (draw 0) else s.txRing
  let t :=
    match e with
    | .rx _ _ => { s with rxRing := s.rxRing.syncRd cap lag (draw 1), txRing := tx1 }
    | .txReady => s
    | .cmd _ => { s with rxRing := s.rxRing.syncWr cap lag (draw 1), txRing := tx1.syncRd cap lag (draw 2) }
  { t with lagDraws := if lag = 0 then s.lagDraws else s.lagDraws + 3 }

/-- The state in which a step runs its event: the time sampled (00_scope.md R17), the ports quiet, the event taken. -/
def State.accept (s : State) (now : Nat) (e : PortEvent) (rest : List Instant) : State :=
  { s with now := now % 2 ^ s.params.timeW, inputs := rest, out := Outputs.quiet }.syncCopies e

/-- A step with no event: the CORE advances nothing by itself (42_arbitrator.md R182, R194). -/
def State.rest (s : State) : State := { s with inputs := [], out := Outputs.quiet }

/-- The operation of the next event and the state it runs in; none with no event left. -/
def fetch (s : State) : Option (Instr × State) :=
  match nextEvent s.inputs with
  | some (now, e, rest) => some (decodePort e, s.accept now e rest)
  | none => none

/-- The instant that holds one event alone. -/
def Instant.single (now : Nat) (e : PortEvent) : Instant :=
  match e with
  | .rx mark b => { now := now, rx := some (mark, b), txReady := false, cmd := none }
  | .txReady => { now := now, rx := none, txReady := true, cmd := none }
  | .cmd c => { now := now, rx := none, txReady := false, cmd := some c }

/-- An event placed before all others. -/
def State.push (s : State) (e : PortEvent) : State := { s with inputs := Instant.single s.now e :: s.inputs }

/-- The RX ring holding one Message and nothing else. -/
def Ring.holding (cap : Nat) (m : Message) : Ring :=
  { Ring.empty cap with
    mem := (Ring.empty cap).mem.set 0 { len := m.length, bytes := (m ++ List.replicate 10 0).take 10 }
    wr := 1 % (2 * cap)
    wrSeen := 1 % (2 * cap) }

/-- A Message where POLL drains its next one, and the POLL: the machine set up, with an address (assumption 14). -/
def State.placeFrame (s : State) (m : Message) : State :=
  { s with
    rxRing := Ring.holding s.params.cap m
    setupDone := true
    myAddr := if s.myAddr = 0 then 1 else s.myAddr }.push (.cmd { op := 1, arg0 := 0, arg1 := 0, arg2 := 0 })

/-- The code of a table word placed where `step` takes its next operation (assumption 14). -/
def State.placeTableWord (s : State) (nbits w : Nat) : State :=
  match tableCode nbits w with
  | some (.port e) => s.push e
  | some (.frame m) => s.placeFrame m
  | none => s

end Sys2Proof.Machine
end

