-- ==== Sys2Proof/Machine/Step.lean ====
section
/-! DEFINITION. The step: one event, one operation (00_scope.md R16). -/

namespace Sys2Proof.Machine

/-- One atomic step of one agent; with no event left the CORE rests (00_scope.md R16, 42_arbitrator.md R194). -/
def step (s : State) : Host.Outcome State Fault Refusal :=
  match fetch s with
  | some (i, t) => exec i t
  | none => .next s.rest

/-- `s` with the operation of a table word as the next one (assumption 14). -/
def State.withFetchWord (s : State) (nbits w : Nat) : State := s.placeTableWord nbits w

end Sys2Proof.Machine
end

