-- ==== Sys2Proof/Safety.lean ====
section
/-! DEFINITION. The terms claims are stated in: what a ring holds, what a well-shaped state is, and what stays the same. -/

namespace Sys2Proof.Machine

/-! ### What a ring holds -/

/-- The committed unread Messages of a ring, oldest first (41_ring_buffers.md R169, R171). -/
def Ring.contents (cap : Nat) (r : Ring) : List Message :=
  (List.range (r.count cap)).map fun k => (r.slotAt cap (r.rd + k)).message

/-- The bytes of the Message being assembled (10_state.md R37). -/
def Ring.inProgress (cap : Nat) (r : Ring) : List Byte := (r.slotAt cap r.wr).bytes.take r.curPos

/-- The Messages of the TX ring. -/
def State.txQueue (s : State) : List Message := s.txRing.contents s.params.cap

/-- The Messages of the RX ring. -/
def State.rxQueue (s : State) : List Message := s.rxRing.contents s.params.cap

/-! ### The canonical form of a ring's store, and of its indices -/

/-- The store of a ring is exactly `CAP` slots of ten bytes (20_memory.md R71). -/
abbrev Ring.shapeOk (cap : Nat) (r : Ring) : Prop :=
  r.mem.length = cap ∧ ∀ m ∈ r.mem, m.bytes.length = 10 ∧ m.len ≤ 10

/-- The indices are legal values, each copy lies between the indices it may hold, and the write index is never
further ahead than the capacity (10_state.md R36, R48, R52 item 1; 20_memory.md R84). -/
abbrev Ring.indexOk (cap : Nat) (r : Ring) : Prop :=
  (r.wr < 2 * cap ∧ r.rd < 2 * cap ∧ r.wrSeen < 2 * cap ∧ r.rdSeen < 2 * cap) ∧
  idxDist cap r.rd r.wrSeen + idxDist cap r.wrSeen r.wr = idxDist cap r.rd r.wr ∧
  idxDist cap r.rdSeen r.rd + idxDist cap r.rd r.wr = idxDist cap r.rdSeen r.wr ∧
  idxDist cap r.rdSeen r.wr ≤ cap

/-- The write cursor: at most 10, at 0 when closed, and never open on a slot that is not free (10_state.md R52 item 2,
20_memory.md R85 clause 3). -/
abbrev Ring.cursorOk (cap : Nat) (r : Ring) : Prop :=
  r.curPos ≤ 10 ∧ (r.curOpen = false → r.curPos = 0) ∧ (r.curOpen = true → idxDist cap r.rdSeen r.wr < cap)

/-- With `SYNC_LAG = 0` every copy equals its original (10_state.md R48). -/
abbrev Ring.copiesOk (lag : Nat) (r : Ring) : Prop := lag = 0 → r.wrSeen = r.wr ∧ r.rdSeen = r.rd

/-- A ring as every run has it. -/
abbrev Ring.Ok (cap lag : Nat) (r : Ring) : Prop :=
  r.shapeOk cap ∧ r.indexOk cap ∧ r.cursorOk cap ∧ r.copiesOk lag

/-- `r'` is `r` with the Message `m` committed: only the slot `Q_WR mod CAP` is stored to (41_ring_buffers.md R168,
20_memory.md R77, R85 clause 3), and the consumer's copy moves with the index exactly when `SYNC_LAG = 0` (10_state.md R48). -/
def Ring.Gains (cap lag : Nat) (r r' : Ring) (m : Message) : Prop :=
  r'.contents cap = r.contents cap ++ [m] ∧
  r'.wr = idxNext cap r.wr ∧
  r'.wrSeen = (if lag = 0 then r'.wr else r.wrSeen) ∧
  (∀ i, i ≠ r.wr % cap → r'.mem[i]? = r.mem[i]?) ∧
  { r' with mem := r.mem, wr := r.wr, wrSeen := r.wrSeen, curOpen := r.curOpen, curPos := r.curPos } = r

/-- `r'` is `r` with its oldest Message read: nothing is stored to, only the read index moves (41_ring_buffers.md R164,
20_memory.md R77), and the producer's copy with it exactly when `SYNC_LAG = 0` (10_state.md R48). -/
def Ring.Loses (cap lag : Nat) (r r' : Ring) (m : Message) : Prop :=
  r.contents cap = m :: r'.contents cap ∧
  r'.rd = idxNext cap r.rd ∧
  r'.rdSeen = (if lag = 0 then r'.rd else r.rdSeen) ∧
  { r' with rd := r.rd, rdSeen := r.rdSeen } = r

/-- What a step of its reader does to an index copy: `seen'` is the copy after, `past` the index at the reader's last
`lag` steps. It moves onward and not past the original; without lag it is the original; it is the original once the
index has stood still for `lag` steps of the reader (10_state.md R48). -/
def CopyFollows (cap lag orig seen seen' : Nat) (past : List Nat) : Prop :=
  (seen < 2 * cap → orig < 2 * cap →
    seen' < 2 * cap ∧ idxDist cap seen seen' + idxDist cap seen' orig = idxDist cap seen orig ∧
    (past = List.replicate lag orig → seen' = orig)) ∧
  (lag = 0 → seen' = orig)

/-- `r'` is `r` after a step of its consumer's: only the consumer's copy of the write index moves, and the index is
recorded (10_state.md R48; the record is the model's, assumption 7). -/
def Ring.WrFollows (cap lag : Nat) (r r' : Ring) : Prop :=
  CopyFollows cap lag r.wr r.wrSeen r'.wrSeen r.wrPast ∧
  r'.wrPast = (r.wrPast ++ [r.wr]).drop (r.wrPast.length + 1 - lag) ∧
  { r' with wrSeen := r.wrSeen, wrPast := r.wrPast } = r

/-- `r'` is `r` after a step of its producer's: only the producer's copy of the read index moves, and the index is
recorded (10_state.md R48; the record is the model's, assumption 7). -/
def Ring.RdFollows (cap lag : Nat) (r r' : Ring) : Prop :=
  CopyFollows cap lag r.rd r.rdSeen r'.rdSeen r.rdPast ∧
  r'.rdPast = (r.rdPast ++ [r.rd]).drop (r.rdPast.length + 1 - lag) ∧
  { r' with rdSeen := r.rdSeen, rdPast := r.rdPast } = r

/-! ### The invariant of 10_state.md R52 -/

/-- No two slots hold one address (10_state.md R42). -/
abbrev State.slotsUnique (s : State) : Prop :=
  ∀ i < 31, ∀ j < 31, i ≠ j → s.slots.getD i none = s.slots.getD j none → s.slots.getD i none = none

/-- A Message has 3 to 10 bytes (30_encoding.md R100). -/
abbrev lengthOk (m : Message) : Prop := 3 ≤ m.length ∧ m.length ≤ 10

/-- A received Message is as long as its header announces (10_state.md R52 item 3). -/
abbrev headerOk (m : Message) : Prop := m.length = dataCount (byteAt m 1) + 3

/-- The parser in its body: the cursor is open, 1 to 8 bytes are expected, and the bytes appended and the bytes
expected make up the length the header announces (10_state.md R52 item 4, 40_wire_codec.md R149). -/
abbrev State.bodyOk (s : State) : Prop :=
  s.rxaSt = .body →
    s.rxRing.curOpen = true ∧ 1 ≤ s.rxaRem.toNat ∧ s.rxaRem.toNat ≤ 8 ∧ 2 ≤ s.rxRing.curPos ∧
    s.rxRing.curPos + s.rxaRem.toNat = dataCount (byteAt (s.rxRing.inProgress s.params.cap) 1) + 3

/-- What holds in every state a run reaches (10_state.md R52, R42). -/
structure State.Inv (s : State) : Prop where
  /-- The parameters are in their ranges (00_scope.md R10). -/
  params : s.params.inRange = true
  /-- R52 items 1 and 2, for RX. -/
  rx : s.rxRing.Ok s.params.cap s.params.syncLag
  /-- R52 item 1, for TX. -/
  tx : s.txRing.Ok s.params.cap s.params.syncLag
  /-- The TX cursor is closed at the end of every step (R38). -/
  txCursor : s.txRing.curOpen = false
  /-- R52 item 3, for RX. -/
  rxMsgs : ∀ m ∈ s.rxQueue, lengthOk m ∧ headerOk m
  /-- R52 item 3, for TX. -/
  txMsgs : ∀ m ∈ s.txQueue, lengthOk m
  /-- R52 item 4. -/
  body : s.bodyOk
  /-- R52 item 5. -/
  window : s.winOpen = true → s.role = .master
  /-- R52 item 6. -/
  engine : s.txActive = true → s.txIdx ≤ s.txLen ∧ 1 ≤ s.txLen ∧ s.txLen ≤ 10
  /-- `TX_BUF` is ten bytes (R39). -/
  buffer : s.txBuf.length = 10
  /-- R52 item 7. -/
  address : s.setupDone = true → s.myAddr ≠ 0
  /-- R52 item 7. -/
  idle : s.setupDone = false → s.role = .idle
  /-- R52 item 8. -/
  manual : s.auto = false → s.role = .idle ∨ s.role = .master
  /-- The Slot Table has 31 entries (R41). -/
  slotCount : s.slots.length = 31
  /-- R52 item 9. -/
  slotsUnique : s.slotsUnique
  /-- `WIN_T0` and the sampled time are `TIME_W` bits (R32, 00_scope.md R17). -/
  time : s.winT0 < 2 ^ s.params.timeW ∧ s.now < 2 ^ s.params.timeW

/-! ### What an operation does, in the terms statements use -/

/-- The notification event `n` of the kind with bit `k`, if that kind is enabled (43_dispatcher.md R233). -/
def State.heard (s : State) (k : Nat) (n : Notification) : List Notification :=
  if s.notifyEn.getLsbD k then [n] else []

/-- The state with further notifications. -/
abbrev State.told (s : State) (ns : List Notification) : State :=
  { s with out := { s.out with ntf := s.out.ntf ++ ns } }

/-- The state with further conditions raised. -/
abbrev State.blames (s : State) (es : List ErrCond) : State :=
  { s with out := { s.out with raised := s.out.raised ++ es } }

/-- The state with a host command answered. -/
abbrev State.answered (s : State) (st : Status) (value : Byte) : State :=
  { s with out := { s.out with cmd := some (st, value) } }

/-- A host command that fails: its status, its condition, nothing else (45_host_commands.md R306). -/
abbrev State.rejected (s : State) (st : Status) (value : Byte) (e : ErrCond) : State :=
  (s.blames [e]).answered st value

/-- The parser after `parser_reset()`: a Message cut in its body is a framing failure (40_wire_codec.md R147, R155). -/
abbrev State.cut (s : State) : State :=
  { s with
    rxaSt := .idle
    rxRing := { s.rxRing with curOpen := false, curPos := 0 }
    out := { s.out with raised := s.out.raised ++ (if s.rxaSt = .body then [.framingTruncated] else []) } }

/-- The window's timer restarted by a data byte, if it is open (42_arbitrator.md R185 line 4). -/
abbrev State.heardByte (s : State) : State :=
  { s with winT0 := if s.role = .master ∧ s.winOpen = true then s.now else s.winT0 }

/-- The transmit engine loaded with the bytes `bs` (42_arbitrator.md R190). -/
abbrev State.loaded (s : State) (bs : List Byte) (mark0 opensWin : Bool) : State :=
  { s with txBuf := bs ++ s.txBuf.drop bs.length, txLen := bs.length, txIdx := 0, txMark0 := mark0,
           txOpensWin := opensWin, txActive := true }

/-- The call-byte row of a class (30_encoding.md R105). -/
def callRow (cls : CbClass) (p : Bool) (a : DevAddr) : Instr :=
  match cls with
  | .poll => .cbPoll p a
  | .ackreq => .cbAckreq p a
  | .msg => .cbMsg p a
  | .reserved => .cbReserved p a

/-- The TX ring is one a run has, of a capacity in range (00_scope.md R10). -/
abbrev State.TxOk (s : State) : Prop := 1 ≤ s.params.cap ∧ s.txRing.Ok s.params.cap s.params.syncLag

/-- The RX ring is one a run has, of a capacity in range (00_scope.md R10). -/
abbrev State.RxOk (s : State) : Prop := 1 ≤ s.params.cap ∧ s.rxRing.Ok s.params.cap s.params.syncLag

/-- The Slot Table is one a run has: 31 entries, no address held twice (10_state.md R41, R42). -/
abbrev State.SlotsOk (s : State) : Prop := s.slots.length = 31 ∧ s.slotsUnique

/-- The state after `close_window()`, if the window is open (42_arbitrator.md R198 line 3, R199). -/
abbrev State.slotEnded (s : State) : State := if s.winOpen = true then { s with winOpen := false }.cut else s

/-- The number of a speed-step variant in a selector and in a sub-code (30_encoding.md R127, R111). -/
def stepsNo : Steps → Nat
  | .s14 => 0
  | .s27 => 1
  | .s28 => 2
  | .s128 => 3

/-- A polled device's frame decodes to the operation `i` (30_encoding.md R117, R118). -/
abbrev DmFrame (dev : DevAddr) (hdr : Byte) (data : List Byte) (i : Instr) : Prop :=
  decodeFrame (mkCb .poll dev :: encodeFrame hdr data) = .ok i

/-- A master's frame decodes to the operation `i` (30_encoding.md R117, R120). -/
abbrev MdFrame (dev : DevAddr) (hdr : Byte) (data : List Byte) (i : Instr) : Prop :=
  decodeFrame (mkCb .msg dev :: encodeFrame hdr data) = .ok i

/-- The operation emits one notification of the kind with bit `k` and does nothing else. -/
abbrev Announces (i : Instr) (k : Nat) (n : Notification) : Prop :=
  ∀ s : State, exec i s = .next (s.told (s.heard k n))

/-- A reply `m` that the TX ring takes, or that is lost with `E_TX_FULL`: `k r es` is the next state with the TX ring
`r` and the conditions `es` raised (43_dispatcher.md R234). -/
def State.Replies (s : State) (m : Message) (k : Ring → List ErrCond → State)
    (o : Host.Outcome State Fault Refusal) : Prop :=
  (s.txFull = false → ∃ r, s.txRing.Gains s.params.cap s.params.syncLag r m ∧ o = .next (k r [])) ∧
  (s.txFull = true → o = .next (k s.txRing [.txFull]))

/-- A Message `m` a host command queues, or the command rejected with `E_TX_FULL` and nothing changed: `k r` is the next
state with the TX ring `r` (45_host_commands.md R306, R307). -/
def State.Pushes (s : State) (m : Message) (k : Ring → State) (o : Host.Outcome State Fault Refusal) : Prop :=
  (s.txFull = false → ∃ r, s.txRing.Gains s.params.cap s.params.syncLag r m ∧ o = .next (k r)) ∧
  (s.txFull = true → o = .next (s.rejected .eTxFull 0 .txFull))

/-- No slot but `own` holds the address (44_slot_table.md R291). -/
abbrev State.FreeFor (s : State) (own : Nat) (loco : LocoAddr) : Prop :=
  ∀ t < 31, t ≠ own → s.slots.getD t none ≠ some loco

/-- The slots of `s` with the slot `own` replaced by `v`, and no other touched. -/
abbrev State.SlotSet (s : State) (own : Nat) (v : Option LocoAddr) (slots : List (Option LocoAddr)) : Prop :=
  slots.length = 31 ∧ slots.getD own none = v ∧ ∀ t < 31, t ≠ own → slots.getD t none = s.slots.getD t none

/-- A drive or function frame of the device `dev`: granted when no other slot holds the address, refused with a busy
notice when one does (43_dispatcher.md R235, 44_slot_table.md R296). -/
def Books (i : Instr) (dev : DevAddr) (loco : LocoAddr) (k : Nat) (n : Notification) : Prop :=
  ∀ s : State, s.TxOk → s.SlotsOk →
    (dev = 0 → exec i s = .next (s.told (s.heard k n))) ∧
    (dev ≠ 0 → s.FreeFor (dev.toNat - 1) loco →
      ∃ slots, s.SlotSet (dev.toNat - 1) (some loco) slots ∧
        exec i s = .next ({ s with slots := slots }.told (s.heard k n))) ∧
    (dev ≠ 0 → ∀ t < 31, t ≠ dev.toNat - 1 → s.slots.getD t none = some loco →
      s.Replies (mkCb .msg dev :: frameBusy s.params.hdrMap loco t)
        (fun r es => { s with txRing := r }.blames (.busy :: es)) (exec i s))

/-- A device's power request: cached, notified, and broadcast (43_dispatcher.md R238 to R241). -/
def GrantsPower (i : Instr) (p : Power) : Prop :=
  ∀ s : State, s.TxOk →
    s.Replies (0xC0 :: powerBroadcast s.params.hdrMap p)
      (fun r es => ({ s with power := p, txRing := r }.told (s.heard 0 (.power p))).blames es)
      (exec i s)

/-- A master's drive frame: notified, and it answers the info request for its address (43_dispatcher.md R269). -/
def AnswersInfo (i : Instr) (loco : LocoAddr) (k : Nat) (n : Notification) : Prop :=
  ∀ s : State,
    (s.pendInfo = true → s.pendInfoAddr = loco → exec i s = .next { s.told (s.heard k n) with pendInfo := false }) ∧
    (s.pendInfo = false ∨ s.pendInfoAddr ≠ loco → exec i s = .next (s.told (s.heard k n)))

/-- A master's function frame: notified, and it answers the function request for its address (43_dispatcher.md R270). -/
def AnswersFunc (i : Instr) (loco : LocoAddr) (k : Nat) (n : Notification) : Prop :=
  ∀ s : State,
    (s.pendFunc = true → s.pendFuncAddr = loco → exec i s = .next { s.told (s.heard k n) with pendFunc := false }) ∧
    (s.pendFunc = false ∨ s.pendFuncAddr ≠ loco → exec i s = .next (s.told (s.heard k n)))

/-- A drive or function push of the frame `f`: as master it must get the address for the local slot, and takes it when
the Message is queued; otherwise it is only queued (45_host_commands.md R313, R315). -/
def State.ClaimsAndPushes (s : State) (i : Instr) (loco : LocoAddr) (f : List Byte) : Prop :=
  (s.role = .master → s.FreeFor (s.myAddr.toNat - 1) loco →
    ∃ slots, s.SlotSet (s.myAddr.toNat - 1) (some loco) slots ∧
      s.Pushes (0xC0 :: f) (fun r => { s with txRing := r, slots := slots }.answered .ok 0) (exec i s)) ∧
  (s.role = .master → ∀ t < 31, t ≠ s.myAddr.toNat - 1 → s.slots.getD t none = some loco →
    exec i s = .next (s.rejected .eBusy (BitVec.ofNat 8 t) .busy)) ∧
  (s.role ≠ .master →
    s.Pushes (mkCb .poll s.myAddr :: f) (fun r => { s with txRing := r }.answered .ok 0) (exec i s))

/-- `n` TXI steps in a row and the bytes they emit, oldest first. -/
def txiRun : Nat → State → List (Bool × Byte) × State
  | 0, s => ([], s)
  | n + 1, s =>
    match exec .txi { s with out := Outputs.quiet } with
    | .next t => ((t.out.tx.toList ++ (txiRun n t).1), (txiRun n t).2)
    | .fault _ => ([], s)
    | .refused _ => ([], s)

/-- The data bytes `bs` received one after the other, mark 0 on each (30_encoding.md R130, `RXMSG`). -/
def rxiRun : List Byte → State → State
  | [], s => s
  | b :: bs, s =>
    match exec (.rxi false b) s with
    | .next t => rxiRun bs t
    | .fault _ => s
    | .refused _ => s

/-! ### A ring as a queue (41_ring_buffers.md R171) -/

/-- What a producer and a consumer ask of a ring. -/
inductive RingOp where
  | put (m : Message)
  | get
deriving DecidableEq, Repr

/-- What they are answered. -/
inductive RingOut where
  | accepted (b : Bool)
  | got (m : Option Message)
deriving DecidableEq, Repr

/-- The answers of a ring to a sequence of operations. -/
def Ring.run (cap lag : Nat) : Ring → List RingOp → List RingOut
  | _, [] => []
  | r, .put m :: ops =>
    match r.enqueue cap lag m with
    | some r' => .accepted true :: r'.run cap lag ops
    | none => .accepted false :: r.run cap lag ops
  | r, .get :: ops =>
    match r.tryRead cap lag with
    | some (m, r') => .got (some m) :: r'.run cap lag ops
    | none => .got none :: r.run cap lag ops

/-- The answers of a first-in first-out queue of at most `cap` Messages. -/
def queueRun (cap : Nat) : List Message → List RingOp → List RingOut
  | _, [] => []
  | q, .put m :: ops =>
    if q.length < cap then .accepted true :: queueRun cap (q ++ [m]) ops
    else .accepted false :: queueRun cap q ops
  | [], .get :: ops => .got none :: queueRun cap [] ops
  | m :: q, .get :: ops => .got (some m) :: queueRun cap q ops

end Sys2Proof.Machine
end

