-- ==== Sys2Proof/Certificates/Slice0/Obligations.lean ====
section
/-! DEFINITION. The statements for the provers. Each docstring names the rules of spec/ it formalises. -/

open Sys2Proof Sys2Proof.Machine

/-! ### Encoding -/

/-- Decoding the bits of a well-formed operation gives the operation back (30_encoding.md R117, R126, R131). -/
def Obligations.DecodeOfEncode : Prop :=
  ∀ (i : Instr) (c : Code), i.WellFormed = true → encode i = some c → decode c = .ok i

/-- The four call-byte rows partition all 256 byte values, and no bit of a call byte is dropped (30_encoding.md R131,
R103, R105). -/
def Obligations.CallByteRowsPartition : Prop :=
  (∀ (cls : CbClass) (p : Bool) (a : DevAddr), decodePort (.rx true (rawCallByte cls p a)) = callRow cls p a) ∧
  (∀ b : Byte, ∃ cls p a, decodePort (.rx true b) = callRow cls p a ∧ rawCallByte cls p a = b)

/-- Words written out from the spec's examples decode to the operations they stand for, and every host code 0 to 18 to its
command with the arguments it uses, every other to the reserved row (30_encoding.md R118, R120, R126; 43_dispatcher.md R251,
R256, R258, R268, R270). -/
def Obligations.WrittenWordsDecode : Prop :=
  decode (.port (.rx true 0x03)) = .ok (.cbPoll false 3) ∧
  decode (.port (.rx true 0x65)) = .ok (.cbAckreq true 5) ∧
  decode (.port (.rx true 0xC0)) = .ok (.cbMsg true 0) ∧
  decode (.port (.rx true 0xA0)) = .ok (.cbReserved false 0) ∧
  decode (.frame [0x03, 0xE4, 0x13, 0xC3, 0xE8, 0xA0, 0x7C]) = .ok (.locoDrive128 3 1000 0xA0) ∧
  decode (.frame [0x03, 0xE4, 0x28, 0x00, 0x03, 0x81, 0x4E]) = .ok (.locoFuncG5 3 3 0x81) ∧
  decode (.frame [0x03, 0xE6, 0x30, 0xC3, 0xE8, 0xE9, 0x1C, 0xFB, 0xF3]) = .ok (.pomBit 3 1000 284 3 true) ∧
  decode (.frame [0x03, 0x21, 0x24, 0x05]) = .ok (.dmUnknown 3 0x21 [0x24]) ∧
  decode (.frame [0xC0, 0x63, 0x14, 0x05, 0x2A, 0x58]) = .ok (.cvResult 0 5 0x2A) ∧
  decode (.frame [0xC5, 0xE4, 0x20, 0x00, 0x03, 0x11, 0xD6]) = .ok (.locoFuncG1M 5 3 0x11) ∧
  (∀ (a0 : BitVec 16) (a1 : BitVec 8) (a2 : BitVec 18),
    (List.range 19).map (fun k => decode (.port (.cmd { op := BitVec.ofNat 5 k, arg0 := a0, arg1 := a1, arg2 := a2 }))) =
      [.ok (.setup a0 a1 a2), .ok .poll, .ok (.setPower a0), .ok .getPower, .ok .getRole, .ok (.locoClaim a0),
       .ok (.locoBusyNote a0), .ok (.pushDrive a0 a1 a2), .ok (.pushFunc a0 a1 a2), .ok (.getLocoInfo a0),
       .ok (.getLocoFunc a0), .ok (.pushTurnoutStatus a0), .ok (.pushTurnoutCmd a0 a1), .ok (.setCvReadValue a0 a1),
       .ok .setCvNack, .ok .setCvNackSc, .ok (.pushFeedback a0), .ok (.releaseSlot a0), .ok (.pendTimeout a0)] ∧
    ∀ op : BitVec 5, 18 < op.toNat →
      decode (.port (.cmd { op := op, arg0 := a0, arg1 := a1, arg2 := a2 })) = .ok (.hostReserved op)) ∧
  decode (.port (.rx false 0xE4)) = .ok (.rxi false 0xE4) ∧
  decode (.port .txReady) = .ok .txi

/-- By the default tables the frames the CORE builds have the bytes of 30_encoding.md R122, and a host command's Message the
byte 0 of 45_host_commands.md R307; a locomotive address has the two bytes of R110; a notification's payload has its fields in
the order of R128, the last in the least significant bits (42_arbitrator.md R184); statuses and conditions have the codes of
R127 and 60_exceptions.md R341. -/
def Obligations.BuiltFramesHaveTheirBytes : Prop :=
  (∀ t : HdrMap, t = defaultHdrMap →
    powerBroadcast t .normal = [0x61, 0x01, 0x60] ∧ powerBroadcast t .off = [0x61, 0x00, 0x61] ∧
    powerBroadcast t .short = [0x61, 0x00, 0x61] ∧ powerBroadcast t .service = [0x61, 0x02, 0x63] ∧
    powerBroadcast t .estop = [0x81, 0x00, 0x81] ∧
    powerRequest t .normal = some [0x21, 0x81, 0xA0] ∧ powerRequest t .off = some [0x21, 0x80, 0xA1] ∧
    powerRequest t .estop = some [0x80, 0x80] ∧ powerRequest t .service = some [0x21, 0x10, 0x31] ∧
    powerRequest t .short = none ∧
    frameNotUnderstood t = [0x61, 0x82, 0xE3] ∧ frameCvNack t = [0x61, 0x13, 0x72] ∧
    frameCvNackSc t = [0x61, 0x12, 0x73] ∧
    frameBusy t 1000 2 = [0xE4, 0x40, 0xC3, 0xE8, 0x02, 0x8D] ∧
    frameDrive t .s128 1000 0xA0 = [0xE4, 0x13, 0xC3, 0xE8, 0xA0, 0x7C] ∧
    frameFunc t .g1 3 0x11 = [0xE4, 0x20, 0x00, 0x03, 0x11, 0xD6] ∧
    frameInfoReq t 1000 = [0xE3, 0x00, 0xC3, 0xE8, 0xC8] ∧ frameFuncReq t 3 = [0xE3, 0x07, 0x00, 0x03, 0xE7] ∧
    frameTurnoutFb t 0x05 0x91 = [0x42, 0x05, 0x91, 0xD6] ∧ frameTurnoutCmd t 21 true true = [0x52, 0x05, 0x8B, 0xDC] ∧
    frameCvResult t 5 0x2A = [0x63, 0x14, 0x05, 0x2A, 0x58]) ∧
  frameInit Params.default = [0x21, 0x21, 0x00] ∧ frameAck Params.default = [0x20, 0x20] ∧
  (∀ s : State, s.role = .master → s.hostCb = 0xC0) ∧
  (∀ s : State, s.role ≠ .master → s.hostCb = mkCb .poll s.myAddr) ∧
  (∀ a : LocoAddr,
    (locoLow a).toNat = a.toNat % 256 ∧
    (locoHigh a).toNat = a.toNat / 256 + (if 100 ≤ a.toNat then 0xC0 else 0) ∧
    locoOf (locoHigh a) (locoLow a) = a) ∧
  [(3 : LocoAddr), 99, 100, 1000, 16383].map (fun a => [locoHigh a, locoLow a]) =
    [[0x00, 0x03], [0x00, 0x63], [0xC0, 0x64], [0xC3, 0xE8], [0xFF, 0xFF]] ∧
  (∀ (k : Steps) (a : LocoAddr) (spd : Byte),
    (Notification.drive k a spd).payload.toNat = a.toNat * 256 + spd.toNat ∧
    (Notification.drive k a spd).kind = 1 + stepsNo k) ∧
  (∀ (a : LocoAddr) (f5 : BitVec 5) (f4 : BitVec 4) (g : BitVec 3) (fb : Byte),
    (Notification.funcG1 a f5).payload.toNat = a.toNat * 32 + f5.toNat ∧
    (Notification.funcG2 a f4).payload.toNat = a.toNat * 16 + f4.toNat ∧
    (Notification.funcG3 a f4).payload.toNat = a.toNat * 16 + f4.toNat ∧
    (Notification.funcGen a g fb).payload.toNat = a.toNat * 2048 + g.toNat * 256 + fb.toNat) ∧
  (∀ (x y : Byte) (t : BitVec 10) (p q : Bool),
    (Notification.turnoutInfo x p).payload.toNat = x.toNat * 2 + p.toNat ∧
    (Notification.turnoutCmd t p q).payload.toNat = t.toNat * 4 + p.toNat * 2 + q.toNat ∧
    (Notification.feedback x y).payload.toNat = x.toNat * 256 + y.toNat ∧
    (Notification.cvRead x).payload.toNat = x.toNat ∧
    (Notification.cvWrite x y).payload.toNat = x.toNat * 256 + y.toNat) ∧
  (∀ (a : LocoAddr) (cv : BitVec 10) (v : Byte) (pos : BitVec 3) (p : Bool),
    (Notification.pomByte a cv v).payload.toNat = a.toNat * 262144 + cv.toNat * 256 + v.toNat ∧
    (Notification.pomBit a cv pos p).payload.toNat = a.toNat * 16384 + cv.toNat * 16 + pos.toNat * 2 + p.toNat ∧
    (Notification.locoInfoReq a).payload.toNat = a.toNat ∧ (Notification.locoFuncReq a).payload.toNat = a.toNat) ∧
  [Power.normal, .estop, .off, .short, .service].map (fun p => (Notification.power p).payload.toNat) = [0, 1, 2, 3, 4] ∧
  [Status.ok, .eTxFull, .ePending, .eBusy, .eBadArg, .eNotSetup].map (fun st => st.code.toNat) = [0, 1, 2, 3, 4, 5] ∧
  [ErrCond.checksum, .framingLength, .framingTruncated, .unknownHdr, .busy, .pending, .rxOverflow, .txFull, .roleDesync,
    .cvFail, .cvFailSc, .cbParity, .notSetup, .badArg].map ErrCond.number = (List.range 14).map (· + 1)

/-! ### Wire Codec -/

/-- The laws of the pure functions (40_wire_codec.md R146): an encoded frame verifies under any call byte; `verify` fails
iff the exclusive-or of the flipped-bit masks is non-zero, so one flipped bit is seen and two of one position are not;
the call byte is not examined; a bare address gets an even call byte. -/
def Obligations.CodecLaws : Prop :=
  (∀ (cb h : Byte) (d : List Byte), verify (cb :: encodeFrame h d) = true) ∧
  (∀ (cb h : Byte) (d masks : List Byte), masks.length = (encodeFrame h d).length →
    (verify (cb :: List.zipWith (· ^^^ ·) (encodeFrame h d) masks) = true ↔ xorBytes masks = 0)) ∧
  (∀ (cb h : Byte) (d : List Byte) (i k : Nat), i < (encodeFrame h d).length → k < 8 →
    verify (cb :: (encodeFrame h d).modify i (· ^^^ BitVec.twoPow 8 k)) = false) ∧
  (∀ (cb h : Byte) (d : List Byte) (i j k : Nat), i < (encodeFrame h d).length → j < (encodeFrame h d).length → i ≠ j →
    verify (cb :: ((encodeFrame h d).modify i (· ^^^ BitVec.twoPow 8 k)).modify j (· ^^^ BitVec.twoPow 8 k)) = true) ∧
  (∀ (cb cb' : Byte) (f : List Byte), verify (cb :: f) = verify (cb' :: f)) ∧
  (∀ a : DevAddr, popcount (callByteParity (a.setWidth 8)) % 2 = 0)

/-- The call byte's accessors and its constructor agree, and `callByteParity` sets bit 6 alone so that the count of 1 bits
is even (40_wire_codec.md R143, R145; 30_encoding.md R104). -/
def Obligations.CallByteConstructor : Prop :=
  (∀ (cls : CbClass) (a : DevAddr), cbOk (mkCb cls a) = true ∧ cbClass (mkCb cls a) = cls ∧ cbAddr (mkCb cls a) = a) ∧
  (∀ cb : Byte,
    (cbClass cb = .poll ↔ cb.getLsbD 7 = false ∧ cb.getLsbD 5 = false) ∧
    (cbClass cb = .ackreq ↔ cb.getLsbD 7 = false ∧ cb.getLsbD 5 = true) ∧
    (cbClass cb = .msg ↔ cb.getLsbD 7 = true ∧ cb.getLsbD 5 = false) ∧
    (cbClass cb = .reserved ↔ cb.getLsbD 7 = true ∧ cb.getLsbD 5 = true) ∧
    cbAddr cb = cb.extractLsb' 0 5 ∧ (cbOk cb = true ↔ popcount cb % 2 = 0)) ∧
  mkCb .poll 3 = 0x03 ∧ mkCb .ackreq 3 = 0x63 ∧ mkCb .msg 3 = 0xC3 ∧ mkCb .msg 0 = 0xC0 ∧
  (∀ (raw : Byte) (s : State),
    exec (.callByteParity raw) s = .next { s with out := { s.out with op := .byte (callByteParity raw) } } ∧
    callByteParity raw &&& 0xBF = raw &&& 0xBF ∧ popcount (callByteParity raw) % 2 = 0 ∧
    callByteParity (callByteParity raw) = callByteParity raw) ∧
  callByteParity 0x03 = 0x03 ∧ callByteParity 0x01 = 0x41 ∧ callByteParity 0x80 = 0xC0

/-- The checksum is the exclusive-or of header and data, in any order; a Message verifies exactly when its last byte is
that checksum; `encode` appends it (40_wire_codec.md R141, R142, R144; 30_encoding.md R102). -/
def Obligations.ChecksumVerifyEncode : Prop :=
  (∀ (h : Byte) (d : List Byte) (s : State),
    exec (.computeChecksum h d) s = .next { s with out := { s.out with op := .byte (computeChecksum h d) } }) ∧
  (∀ h : Byte, computeChecksum h [] = h) ∧
  (∀ (h b : Byte) (d : List Byte), computeChecksum h (d ++ [b]) = computeChecksum h d ^^^ b) ∧
  (∀ (h h' : Byte) (d d' : List Byte), (h :: d).Perm (h' :: d') → computeChecksum h d = computeChecksum h' d') ∧
  computeChecksum 0xE4 [0x13, 0xC3, 0xE8, 0xA0] = 0x7C ∧
  (∀ (cb h x : Byte) (d : List Byte) (s : State),
    exec (.verify (cb :: h :: d ++ [x])) s =
      .next { s with out := { s.out with op := .bool (decide (x = computeChecksum h d)) } }) ∧
  (∀ (h : Byte) (d : List Byte) (s : State),
    exec (.encodeFrame h d) s = .next { s with out := { s.out with op := .bytes (h :: d ++ [computeChecksum h d]) } })

/-- The gray code of a ring index: the codes of successive values, the wrap included, differ in exactly one bit, a code
has `n` bits, and it converts back (20_memory.md R86). -/
def Obligations.GrayCodeOfIndex : Prop :=
  (∀ cap p : Nat, 1 ≤ cap → p < 2 * cap →
    (∃ k < indexWidth cap, grayCode cap (idxNext cap p) = grayCode cap p ^^^ 2 ^ k) ∧
    grayCode cap p < 2 ^ indexWidth cap ∧ grayIndex cap (grayCode cap p) = p) ∧
  (List.range 10).map (grayCode 5) =
    [0b0010, 0b0110, 0b0111, 0b0101, 0b0100, 0b1100, 0b1101, 0b1111, 0b1110, 0b1010]

/-! ### Ring buffers -/

/-- `enqueue` appends one whole Message behind the unread ones, stores to no other slot and leaves the cursor closed; with
the TX ring full it answers false and changes nothing (41_ring_buffers.md R168, 20_memory.md R85). -/
def Obligations.EnqueueAppends : Prop :=
  ∀ (m : Message) (s : State), s.TxOk → lengthOk m →
    (s.txFull = false → ∃ r, s.txRing.Gains s.params.cap s.params.syncLag r m ∧ r.curOpen = false ∧ r.curPos = 0 ∧
      exec (.enqueue m) s = .next { s with txRing := r, out := { s.out with op := .bool true } }) ∧
    (s.txFull = true → exec (.enqueue m) s = .next { s with out := { s.out with op := .bool false } })

/-- `tryRead` returns and removes the oldest complete Message, or none with nothing changed (41_ring_buffers.md R164). -/
def Obligations.TryReadRemovesOldest : Prop :=
  ∀ (q : RingId) (s : State), 1 ≤ s.params.cap → (s.ring q).Ok s.params.cap s.params.syncLag →
    ((s.ring q).isEmpty = false → ∃ m r, (s.ring q).Loses s.params.cap s.params.syncLag r m ∧
      exec (.tryRead q) s = .next { s.setRing q r with out := { s.out with op := .message (some m) } }) ∧
    ((s.ring q).isEmpty = true → exec (.tryRead q) s = .next { s with out := { s.out with op := .message none } })

/-- With `SYNC_LAG = 0` a ring answers every sequence of enqueues and reads as a first-in first-out queue of at most `CAP`
Messages does (41_ring_buffers.md R169 to R171). -/
def Obligations.RingIsABoundedQueue : Prop :=
  ∀ (cap : Nat) (r : Ring) (ops : List RingOp), 1 ≤ cap → r.Ok cap 0 → (∀ m, RingOp.put m ∈ ops → m.length ≤ 10) →
    r.run cap 0 ops = queueRun cap (r.contents cap) ops

/-- `beginWrite` opens the cursor at position 0 unless the ring is full; `abortWrite` closes it (41_ring_buffers.md R160,
R163). -/
def Obligations.CursorOpensAndAborts : Prop :=
  ∀ (q : RingId) (s : State),
    ((s.ring q).isFull s.params.cap = true →
      exec (.beginWrite q) s = .next { s with out := { s.out with op := .bool false } }) ∧
    ((s.ring q).isFull s.params.cap = false →
      exec (.beginWrite q) s = .next { s.setRing q { s.ring q with curOpen := true, curPos := 0 } with
        out := { s.out with op := .bool true } }) ∧
    exec (.abortWrite q) s = .next (s.setRing q { s.ring q with curOpen := false, curPos := 0 })

/-- `appendByte` adds one byte to the Message in progress and `commit` makes it the newest unread one; outside their
contract both are ignored (41_ring_buffers.md R161, R162). -/
def Obligations.AppendAndCommit : Prop :=
  ∀ (q : RingId) (b : Byte) (s : State), 1 ≤ s.params.cap → (s.ring q).Ok s.params.cap s.params.syncLag →
    ((s.ring q).curOpen = true → (s.ring q).curPos < 10 → ∃ r,
      r.inProgress s.params.cap = (s.ring q).inProgress s.params.cap ++ [b] ∧
      r.contents s.params.cap = (s.ring q).contents s.params.cap ∧
      (∀ i, i ≠ (s.ring q).wr % s.params.cap → r.mem[i]? = (s.ring q).mem[i]?) ∧
      r.curPos = (s.ring q).curPos + 1 ∧
      { r with mem := (s.ring q).mem, curPos := (s.ring q).curPos } = s.ring q ∧
      exec (.appendByte q b) s = .next (s.setRing q r)) ∧
    ((s.ring q).curOpen = false ∨ (s.ring q).curPos = 10 → exec (.appendByte q b) s = .next s) ∧
    ((s.ring q).curOpen = true → ∃ r,
      (s.ring q).Gains s.params.cap s.params.syncLag r ((s.ring q).inProgress s.params.cap) ∧ r.curOpen = false ∧ r.curPos = 0 ∧
      exec (.commit q) s = .next (s.setRing q r)) ∧
    ((s.ring q).curOpen = false → exec (.commit q) s = .next s)

/-- The two tests of a ring: what they compare, that an empty ring is never reported non-empty nor a full one not full,
and that without lag they are exact (41_ring_buffers.md R165, R166, R169). -/
def Obligations.RingTests : Prop :=
  ∀ (q : RingId) (s : State), 1 ≤ s.params.cap → (s.ring q).Ok s.params.cap s.params.syncLag →
    exec (.isEmpty q) s =
      .next { s with out := { s.out with op := .bool (decide ((s.ring q).wrSeen = (s.ring q).rd)) } } ∧
    exec (.isFull q) s =
      .next { s with out := { s.out with
        op := .bool (decide (((s.ring q).wr + 2 * s.params.cap - (s.ring q).rdSeen) % (2 * s.params.cap) = s.params.cap)) } } ∧
    ((s.ring q).contents s.params.cap).length ≤ s.params.cap ∧
    ((s.ring q).contents s.params.cap = [] → (s.ring q).isEmpty = true) ∧
    (((s.ring q).contents s.params.cap).length = s.params.cap → (s.ring q).isFull s.params.cap = true) ∧
    (s.params.syncLag = 0 →
      ((s.ring q).isEmpty = true → (s.ring q).contents s.params.cap = []) ∧
      ((s.ring q).isFull s.params.cap = true → ((s.ring q).contents s.params.cap).length = s.params.cap))

/-! ### Slot Table -/

/-- `requestBusy` is true iff no other slot holds the address; `holder` names the slot that does (44_slot_table.md R291,
R294). -/
def Obligations.SlotQueries : Prop :=
  ∀ (own : Fin 31) (loco : LocoAddr) (s : State), s.SlotsOk →
    (s.FreeFor own.val loco → exec (.requestBusy own loco) s = .next { s with out := { s.out with op := .bool true } }) ∧
    (∀ t < 31, s.slots.getD t none = some loco →
      (t ≠ own.val → exec (.requestBusy own loco) s = .next { s with out := { s.out with op := .bool false } }) ∧
      exec (.holder loco) s = .next { s with out := { s.out with op := .slot (some t) } }) ∧
    ((∀ t < 31, s.slots.getD t none ≠ some loco) →
      exec (.holder loco) s = .next { s with out := { s.out with op := .slot none } })

/-- `markBusy` and `release` write one slot only; marking again is a no-op; after `markBusy` the address is refused to every
other slot, after `release` it is free again (44_slot_table.md R292, R293, R300). -/
def Obligations.SlotWrites : Prop :=
  ∀ (own other : Fin 31) (loco : LocoAddr) (s : State), s.slots.length = 31 →
    (∃ slots, s.SlotSet own.val (some loco) slots ∧ exec (.markBusy own loco) s = .next { s with slots := slots }) ∧
    (s.slots.getD own.val none = some loco → exec (.markBusy own loco) s = .next s) ∧
    (∃ slots, s.SlotSet own.val none slots ∧ exec (.release own) s = .next { s with slots := slots }) ∧
    (s.slots.getD own.val none = none → exec (.release own) s = .next s) ∧
    (other ≠ own → requestBusy s.slots own.val loco = true →
      requestBusy (markBusy s.slots own.val loco) other.val loco = false ∧
      requestBusy (release (markBusy s.slots own.val loco) own.val) other.val loco = true)

/-! ### RXI and TXI -/

/-- A received byte is void before SETUP and while the CORE transmits; a call byte with bad parity is ignored entirely;
one the role, the class or the address gives no action sets `CB_SEEN` and resets the parser, nothing else
(42_arbitrator.md R185 lines 1 to 3, R186, R189; 30_encoding.md R107). -/
def Obligations.CallByteIgnored : Prop :=
  (∀ (b : Byte) (s : State), exec (.rxi true b) s = exec (decodePort (.rx true b)) s) ∧
  (∀ (mark : Bool) (b : Byte) (s : State), s.setupDone = false ∨ s.txActive = true → exec (.rxi mark b) s = .next s) ∧
  (∀ (cls : CbClass) (p : Bool) (a : DevAddr) (s : State), s.setupDone = true → s.txActive = false →
    (cbOk (rawCallByte cls p a) = false → exec (callRow cls p a) s = .next (s.blames [.cbParity])) ∧
    (cbOk (rawCallByte cls p a) = true →
      s.role = .idle ∨ s.role = .master ∨ cls = .reserved ∨ (a ≠ s.myAddr ∧ (cls = .msg → a ≠ 0)) ∨ (a = 0 ∧ cls ≠ .msg) →
      exec (callRow cls p a) s = .next { s with cbSeen := true }.cut))

/-- A normal poll of `MY_ADDR` in Slave or SlaveInit role is a transmit opportunity: `OPP_SEQ` counts it and the oldest TX
Message leaves without its byte 0 and with mark 0 (42_arbitrator.md R187, R205). -/
def Obligations.PollCallByteAnswered : Prop :=
  ∀ (p : Bool) (s : State), s.setupDone = true → s.txActive = false → s.role = .slave ∨ s.role = .slaveInit →
    s.myAddr ≠ 0 → cbOk (rawCallByte .poll p s.myAddr) = true → s.TxOk → s.txBuf.length = 10 →
    (s.txEmpty = true →
      exec (.cbPoll p s.myAddr) s = .next { ({ s with cbSeen := true }).cut with oppSeq := s.oppSeq + 1 }) ∧
    (s.txEmpty = false → ∃ m r, s.txRing.Loses s.params.cap s.params.syncLag r m ∧
      exec (.cbPoll p s.myAddr) s =
        .next ({ ({ s with cbSeen := true }).cut with oppSeq := s.oppSeq + 1, txRing := r }.loaded (m.drop 1) false false))

/-- A call byte of class MSG for this device or for all arms the parser; one of class ACKREQ for this device is answered
with `ACK_SEQ` (42_arbitrator.md R188, R189). -/
def Obligations.MsgAndAckreqCallBytes : Prop :=
  ∀ (p : Bool) (a : DevAddr) (s : State), s.setupDone = true → s.txActive = false →
    s.role = .slave ∨ s.role = .slaveInit →
    (cbOk (rawCallByte .msg p a) = true → a = 0 ∨ a = s.myAddr →
      exec (.cbMsg p a) s =
        .next { ({ s with cbSeen := true }).cut with rxaSt := .header, rxaCb := rawCallByte .msg p a }) ∧
    (cbOk (rawCallByte .ackreq p a) = true → a ≠ 0 → a = s.myAddr → s.txBuf.length = 10 →
      exec (.cbAckreq p a) s =
        .next (({ s with cbSeen := true }).cut.loaded [s.params.ack0, s.params.ack1] false false))

/-- The header byte: more than 7 announced data bytes is a framing failure, a full RX ring an overflow, else the Message
begins with the call byte that armed the parser (40_wire_codec.md R149, R150, R154; 42_arbitrator.md R185 line 4). -/
def Obligations.HeaderByte : Prop :=
  ∀ (b : Byte) (s : State), s.setupDone = true → s.txActive = false → s.rxaSt = .header → s.RxOk →
    (7 < dataCount b → exec (.rxi false b) s = .next ({ s.heardByte with rxaSt := .skip }.blames [.framingLength])) ∧
    (dataCount b ≤ 7 → s.rxFull = true →
      exec (.rxi false b) s = .next ({ s.heardByte with rxaSt := .skip }.blames [.rxOverflow])) ∧
    (dataCount b ≤ 7 → s.rxFull = false → ∃ r,
      r.inProgress s.params.cap = [s.rxaCb, b] ∧ r.contents s.params.cap = s.rxRing.contents s.params.cap ∧
      r.curOpen = true ∧ r.curPos = 2 ∧
      (∀ i, i ≠ s.rxRing.wr % s.params.cap → r.mem[i]? = s.rxRing.mem[i]?) ∧
      { r with mem := s.rxRing.mem, curOpen := s.rxRing.curOpen, curPos := s.rxRing.curPos } = s.rxRing ∧
      exec (.rxi false b) s =
        .next { s.heardByte with rxRing := r, rxaRem := BitVec.ofNat 4 (dataCount b + 1), rxaSt := .body })

/-- The bytes of the body: each is appended; the last one commits the Message, and in Master role closes the window; a byte
with the parser in IDLE or SKIP is dropped (40_wire_codec.md R151 to R153; 42_arbitrator.md R185 line 4). -/
def Obligations.BodyByte : Prop :=
  ∀ (b : Byte) (s : State), s.setupDone = true → s.txActive = false → s.RxOk →
    (s.rxaSt = .idle ∨ s.rxaSt = .skip → exec (.rxi false b) s = .next s.heardByte) ∧
    (s.rxaSt = .body → s.rxRing.curOpen = true → s.rxRing.curPos < 10 → s.rxaRem ≠ 1 → ∃ r,
      r.inProgress s.params.cap = s.rxRing.inProgress s.params.cap ++ [b] ∧
      r.contents s.params.cap = s.rxRing.contents s.params.cap ∧ r.curPos = s.rxRing.curPos + 1 ∧
      (∀ i, i ≠ s.rxRing.wr % s.params.cap → r.mem[i]? = s.rxRing.mem[i]?) ∧
      { r with mem := s.rxRing.mem, curPos := s.rxRing.curPos } = s.rxRing ∧
      exec (.rxi false b) s = .next { s.heardByte with rxRing := r, rxaRem := s.rxaRem - 1 }) ∧
    (s.rxaSt = .body → s.rxRing.curOpen = true → s.rxRing.curPos < 10 → s.rxaRem = 1 → ∃ r,
      s.rxRing.Gains s.params.cap s.params.syncLag r (s.rxRing.inProgress s.params.cap ++ [b]) ∧ r.curOpen = false ∧ r.curPos = 0 ∧
      exec (.rxi false b) s =
        .next { s.heardByte with rxRing := r, rxaRem := 0, rxaSt := .idle,
                                 winOpen := if s.role = .master then false else s.winOpen })

/-- A frame received whole: from an armed parser the bytes of `encode(h, d)` leave the Message `[cb] ++ encode(h, d)` in
the RX ring as the newest unread one, and it verifies (40_wire_codec.md R144, R146 to R152). -/
def Obligations.FrameReceivedWhole : Prop :=
  ∀ (h : Byte) (d : List Byte) (s : State), s.setupDone = true → s.txActive = false → s.rxaSt = .header → s.RxOk →
    s.rxFull = false → d.length ≤ 7 → dataCount h = d.length →
    ∃ r, s.rxRing.Gains s.params.cap s.params.syncLag r (s.rxaCb :: encodeFrame h d) ∧ r.curOpen = false ∧ r.curPos = 0 ∧
      verify (s.rxaCb :: encodeFrame h d) = true ∧
      rxiRun (encodeFrame h d) s =
        { s.heardByte with rxRing := r, rxaRem := 0, rxaSt := .idle,
                           winOpen := if s.role = .master then false else s.winOpen }

/-- The transmitter-ready step: void, the next byte, or the end, which in Master role may open the window
(42_arbitrator.md R192). -/
def Obligations.TransmitterReady : Prop :=
  ∀ s : State,
    (s.setupDone = false ∨ s.txActive = false → exec .txi s = .next s) ∧
    (s.setupDone = true → s.txActive = true →
      (∀ b, s.txIdx < s.txLen → s.txBuf[s.txIdx]? = some b →
        exec .txi s = .next { s with txIdx := s.txIdx + 1,
                                     out := { s.out with tx := some (s.txMark0 && decide (s.txIdx = 0), b) } }) ∧
      (s.txLen ≤ s.txIdx → s.txOpensWin = true → s.role = .master →
        exec .txi s = .next { s with txActive := false, txOpensWin := false, winOpen := true, winT0 := s.now,
                                     rxaSt := .header, rxaCb := s.callByte, out := { s.out with txDone := true } }) ∧
      (s.txLen ≤ s.txIdx → s.txOpensWin = false ∨ s.role ≠ .master →
        exec .txi s = .next { s with txActive := false, txOpensWin := false, out := { s.out with txDone := true } }))

/-- A transmission of `n` bytes takes `n + 1` TXI steps and emits exactly the bytes loaded, mark 1 on a leading call byte
alone (42_arbitrator.md R181, R190, R192). -/
def Obligations.TransmissionTakesNPlusOne : Prop :=
  ∀ s : State, s.setupDone = true → s.txActive = true → s.txIdx = 0 → s.txBuf.length = 10 → s.txLen ≤ 10 →
    (txiRun (s.txLen + 1) s).1 = (s.txBuf.take s.txLen).mapIdx (fun i b => (s.txMark0 && decide (i = 0), b)) ∧
    (txiRun (s.txLen + 1) s).2.txActive = false ∧ (txiRun (s.txLen + 1) s).2.out.txDone = true ∧
    ∀ n ≤ s.txLen, (txiRun n s).2.txActive = true

/-! ### Dispatcher: Messages from polled devices -/

/-- The four power requests of a device: the state is cached, notified, and broadcast to all, by the default tables with the
bytes of the spec (43_dispatcher.md R238 to R241). -/
def Obligations.DevicePowerRequests : Prop :=
  ∀ dev : DevAddr,
    decodeFrame [mkCb .poll dev, 0x21, 0x81, 0xA0] = .ok (.pwrOnReq dev) ∧
    GrantsPower (.pwrOnReq dev) .normal ∧
    decodeFrame [mkCb .poll dev, 0x21, 0x80, 0xA1] = .ok (.pwrOffReq dev) ∧
    GrantsPower (.pwrOffReq dev) .off ∧
    decodeFrame [mkCb .poll dev, 0x21, 0x10, 0x31] = .ok (.pwrServiceReq dev) ∧
    GrantsPower (.pwrServiceReq dev) .service ∧
    decodeFrame [mkCb .poll dev, 0x80, 0x80] = .ok (.estopReq dev) ∧
    GrantsPower (.estopReq dev) .estop ∧
    [Power.normal, .off, .service, .estop].map (powerBroadcast defaultHdrMap) =
      [[0x61, 0x01, 0x60], [0x61, 0x00, 0x61], [0x61, 0x02, 0x63], [0x81, 0x00, 0x81]]

/-- Frames with no effect: an acknowledgement, an initialization sequence, and a master's frame of no kind
(43_dispatcher.md R236, R237, R271; 30_encoding.md R121). -/
def Obligations.FramesWithoutEffect : Prop :=
  ∀ (dev : DevAddr) (hdr : Byte) (data : List Byte) (s : State),
    decodeFrame [mkCb .poll dev, 0x20, 0x20] = .ok (.ackResp dev) ∧ exec (.ackResp dev) s = .next s ∧
    decodeFrame [mkCb .poll dev, 0x21, 0x21, 0x00] = .ok (.devInit dev) ∧ exec (.devInit dev) s = .next s ∧
    (mdKind hdr data = .ignored → MdFrame dev hdr data (.mdIgnored dev hdr data)) ∧
    mdKind 0x61 [0x13] = .ignored ∧ mdKind 0x61 [0x12] = .ignored ∧ mdKind 0x61 [0x82] = .ignored ∧
    mdKind 0xE4 [0x40, 0xC3, 0xE8, 0x02] = .ignored ∧ mdKind 0x81 [0x01] = .ignored ∧
    exec (.mdIgnored dev hdr data) s = .next s

/-- Frames that only notify: CV read, turnout status request, turnout command, locomotive info and function requests of a
device; feedback and turnout command of a master (43_dispatcher.md R242, R244 to R247, R266, R267). -/
def Obligations.FramesThatOnlyNotify : Prop :=
  ∀ (dev : DevAddr) (d0 d1 d2 : Byte),
    DmFrame dev 0x22 [0x15, d1] (.cvReadDirect dev d1) ∧ Announces (.cvReadDirect dev d1) 12 (.cvRead d1) ∧
    DmFrame dev 0x42 [d0, d1] (.turnoutStatusReq dev d0 (d1.getLsbD 0)) ∧
    Announces (.turnoutStatusReq dev d0 (d1.getLsbD 0)) 9 (.turnoutInfo d0 (d1.getLsbD 0)) ∧
    DmFrame dev 0x52 [d0, d1] (.turnoutCmd dev (d0 ++ d1.extractLsb' 1 2) (d1.getLsbD 0) (d1.getLsbD 3)) ∧
    Announces (.turnoutCmd dev (d0 ++ d1.extractLsb' 1 2) (d1.getLsbD 0) (d1.getLsbD 3)) 10
      (.turnoutCmd (d0 ++ d1.extractLsb' 1 2) (d1.getLsbD 0) (d1.getLsbD 3)) ∧
    DmFrame dev 0xE3 [0x00, d1, d2] (.locoInfoReq dev (d1.extractLsb' 0 6 ++ d2)) ∧
    Announces (.locoInfoReq dev (d1.extractLsb' 0 6 ++ d2)) 16 (.locoInfoReq (d1.extractLsb' 0 6 ++ d2)) ∧
    DmFrame dev 0xE3 [0x07, d1, d2] (.locoFuncReq dev (d1.extractLsb' 0 6 ++ d2)) ∧
    Announces (.locoFuncReq dev (d1.extractLsb' 0 6 ++ d2)) 17 (.locoFuncReq (d1.extractLsb' 0 6 ++ d2)) ∧
    MdFrame dev 0x42 [d0, d1] (.turnoutFb dev d0 d1) ∧ Announces (.turnoutFb dev d0 d1) 11 (.feedback d0 d1) ∧
    MdFrame dev 0x52 [d0, d1] (.turnoutCmdM dev (d0 ++ d1.extractLsb' 1 2) (d1.getLsbD 0) (d1.getLsbD 3)) ∧
    Announces (.turnoutCmdM dev (d0 ++ d1.extractLsb' 1 2) (d1.getLsbD 0) (d1.getLsbD 3)) 10
      (.turnoutCmd (d0 ++ d1.extractLsb' 1 2) (d1.getLsbD 0) (d1.getLsbD 3))

/-- The two POM writes only notify (43_dispatcher.md R257, R258; 30_encoding.md R115). -/
def Obligations.PomFramesNotify : Prop :=
  ∀ (dev : DevAddr) (ah al mode cvl val : Byte),
    (mode.extractLsb' 2 6 = 0b111011#6 →
      DmFrame dev 0xE6 [0x30, ah, al, mode, cvl, val]
        (.pomByte dev (ah.extractLsb' 0 6 ++ al) (mode.extractLsb' 0 2 ++ cvl) val)) ∧
    Announces (.pomByte dev (ah.extractLsb' 0 6 ++ al) (mode.extractLsb' 0 2 ++ cvl) val) 14
      (.pomByte (ah.extractLsb' 0 6 ++ al) (mode.extractLsb' 0 2 ++ cvl) val) ∧
    (mode.extractLsb' 2 6 = 0b111010#6 →
      DmFrame dev 0xE6 [0x30, ah, al, mode, cvl, val]
        (.pomBit dev (ah.extractLsb' 0 6 ++ al) (mode.extractLsb' 0 2 ++ cvl) (val.extractLsb' 0 3) (val.getLsbD 3))) ∧
    Announces (.pomBit dev (ah.extractLsb' 0 6 ++ al) (mode.extractLsb' 0 2 ++ cvl) (val.extractLsb' 0 3) (val.getLsbD 3))
      15 (.pomBit (ah.extractLsb' 0 6 ++ al) (mode.extractLsb' 0 2 ++ cvl) (val.extractLsb' 0 3) (val.getLsbD 3))

/-- A device's CV write is cached and notified; a master's CV result is cached only (43_dispatcher.md R243, R268). -/
def Obligations.CvFramesCache : Prop :=
  ∀ (dev : DevAddr) (cv v : Byte) (s : State),
    DmFrame dev 0x23 [0x16, cv, v] (.cvWriteDirect dev cv v) ∧
    exec (.cvWriteDirect dev cv v) s =
      .next ({ s with lastCvValid := true, lastCvIdx := cv, lastCvVal := v }.told (s.heard 13 (.cvWrite cv v))) ∧
    MdFrame dev 0x63 [0x14, cv, v] (.cvResult dev cv v) ∧
    exec (.cvResult dev cv v) s = .next { s with lastCvValid := true, lastCvIdx := cv, lastCvVal := v }

/-- A device's drive frame: the slot bookkeeping decides; granted, the claim is recorded and the drive notified; refused,
the requester gets the busy notice and nothing else changes (43_dispatcher.md R235, R248 to R251). That with the TX ring full
E_BUSY is recorded before E_TX_FULL is read from 60_exceptions.md R354 (assumption 13). -/
def Obligations.DeviceDriveFrames : Prop :=
  ∀ (dev : DevAddr) (ah al spd : Byte),
    DmFrame dev 0xE4 [0x10, ah, al, spd] (.locoDrive14 dev (ah.extractLsb' 0 6 ++ al) spd) ∧
    Books (.locoDrive14 dev (ah.extractLsb' 0 6 ++ al) spd) dev (ah.extractLsb' 0 6 ++ al) 1
      (.drive .s14 (ah.extractLsb' 0 6 ++ al) spd) ∧
    DmFrame dev 0xE4 [0x11, ah, al, spd] (.locoDrive27 dev (ah.extractLsb' 0 6 ++ al) spd) ∧
    Books (.locoDrive27 dev (ah.extractLsb' 0 6 ++ al) spd) dev (ah.extractLsb' 0 6 ++ al) 2
      (.drive .s27 (ah.extractLsb' 0 6 ++ al) spd) ∧
    DmFrame dev 0xE4 [0x12, ah, al, spd] (.locoDrive28 dev (ah.extractLsb' 0 6 ++ al) spd) ∧
    Books (.locoDrive28 dev (ah.extractLsb' 0 6 ++ al) spd) dev (ah.extractLsb' 0 6 ++ al) 3
      (.drive .s28 (ah.extractLsb' 0 6 ++ al) spd) ∧
    DmFrame dev 0xE4 [0x13, ah, al, spd] (.locoDrive128 dev (ah.extractLsb' 0 6 ++ al) spd) ∧
    Books (.locoDrive128 dev (ah.extractLsb' 0 6 ++ al) spd) dev (ah.extractLsb' 0 6 ++ al) 4
      (.drive .s128 (ah.extractLsb' 0 6 ++ al) spd) ∧
    ∀ (loco : LocoAddr) (t : Nat),
      frameBusy defaultHdrMap loco t = encodeFrame 0xE4 [0x40, locoHigh loco, locoLow loco, BitVec.ofNat 8 t]

/-- A device's function frame, the same bookkeeping; the payload is `FB` cut to its group's width (43_dispatcher.md R235,
R252 to R256; 30_encoding.md R112). That with the TX ring full E_BUSY is recorded before E_TX_FULL is read from
60_exceptions.md R354 (assumption 13). -/
def Obligations.DeviceFunctionFrames : Prop :=
  ∀ (dev : DevAddr) (ah al fb : Byte),
    DmFrame dev 0xE4 [0x20, ah, al, fb] (.locoFuncG1 dev (ah.extractLsb' 0 6 ++ al) (fb.extractLsb' 0 5)) ∧
    Books (.locoFuncG1 dev (ah.extractLsb' 0 6 ++ al) (fb.extractLsb' 0 5)) dev (ah.extractLsb' 0 6 ++ al) 5
      (.funcG1 (ah.extractLsb' 0 6 ++ al) (fb.extractLsb' 0 5)) ∧
    DmFrame dev 0xE4 [0x21, ah, al, fb] (.locoFuncG2 dev (ah.extractLsb' 0 6 ++ al) (fb.extractLsb' 0 4)) ∧
    Books (.locoFuncG2 dev (ah.extractLsb' 0 6 ++ al) (fb.extractLsb' 0 4)) dev (ah.extractLsb' 0 6 ++ al) 6
      (.funcG2 (ah.extractLsb' 0 6 ++ al) (fb.extractLsb' 0 4)) ∧
    DmFrame dev 0xE4 [0x22, ah, al, fb] (.locoFuncG3 dev (ah.extractLsb' 0 6 ++ al) (fb.extractLsb' 0 4)) ∧
    Books (.locoFuncG3 dev (ah.extractLsb' 0 6 ++ al) (fb.extractLsb' 0 4)) dev (ah.extractLsb' 0 6 ++ al) 7
      (.funcG3 (ah.extractLsb' 0 6 ++ al) (fb.extractLsb' 0 4)) ∧
    DmFrame dev 0xE4 [0x23, ah, al, fb] (.locoFuncG4 dev (ah.extractLsb' 0 6 ++ al) fb) ∧
    Books (.locoFuncG4 dev (ah.extractLsb' 0 6 ++ al) fb) dev (ah.extractLsb' 0 6 ++ al) 8
      (.funcGen (ah.extractLsb' 0 6 ++ al) 4 fb) ∧
    DmFrame dev 0xE4 [0x28, ah, al, fb] (.locoFuncG5 dev (ah.extractLsb' 0 6 ++ al) fb) ∧
    Books (.locoFuncG5 dev (ah.extractLsb' 0 6 ++ al) fb) dev (ah.extractLsb' 0 6 ++ al) 8
      (.funcGen (ah.extractLsb' 0 6 ++ al) 5 fb) ∧
    ∀ (loco : LocoAddr) (t : Nat),
      frameBusy defaultHdrMap loco t = encodeFrame 0xE4 [0x40, locoHigh loco, locoLow loco, BitVec.ofNat 8 t]

/-- A device's frame of no kind is answered with not-understood, to its sender; nothing else changes (43_dispatcher.md
R259, 30_encoding.md R119). -/
def Obligations.UnknownDeviceFrame : Prop :=
  ∀ (dev : DevAddr) (hdr : Byte) (data : List Byte) (s : State), s.TxOk →
    (dmKind hdr data = .unknown → DmFrame dev hdr data (.dmUnknown dev hdr data)) ∧
    dmKind 0x21 [0x24] = .unknown ∧ dmKind 0xE4 [0x40, 0x00, 0x00, 0x00] = .unknown ∧
    dmKind 0xE3 [0x09, 0x00, 0x03] = .unknown ∧ dmKind 0xE6 [0x30, 0xC3, 0xE8, 0xF0, 0x04, 0x2A] = .unknown ∧
    dmKind 0x61 [0x01] = .unknown ∧ dmKind 0xF0 [] = .unknown ∧
    frameNotUnderstood defaultHdrMap = [0x61, 0x82, 0xE3] ∧
    s.Replies (mkCb .msg dev :: frameNotUnderstood s.params.hdrMap) (fun r es => { s with txRing := r }.blames (.unknownHdr :: es))
      (exec (.dmUnknown dev hdr data) s)

/-! ### Dispatcher: Messages from a master -/

/-- A master's power broadcast is cached and notified, and draws no reply (43_dispatcher.md R261 to R264). -/
def Obligations.MasterPowerFrames : Prop :=
  ∀ (dev : DevAddr) (s : State),
    decodeFrame [mkCb .msg dev, 0x61, 0x01, 0x60] = .ok (.bcPwrOn dev) ∧
    exec (.bcPwrOn dev) s = .next ({ s with power := .normal }.told (s.heard 0 (.power .normal))) ∧
    decodeFrame [mkCb .msg dev, 0x61, 0x00, 0x61] = .ok (.bcPwrOff dev) ∧
    exec (.bcPwrOff dev) s = .next ({ s with power := .off }.told (s.heard 0 (.power .off))) ∧
    decodeFrame [mkCb .msg dev, 0x61, 0x02, 0x63] = .ok (.bcService dev) ∧
    exec (.bcService dev) s = .next ({ s with power := .service }.told (s.heard 0 (.power .service))) ∧
    decodeFrame [mkCb .msg dev, 0x81, 0x00, 0x81] = .ok (.bcEstop dev) ∧
    exec (.bcEstop dev) s = .next ({ s with power := .estop }.told (s.heard 0 (.power .estop)))

/-- A master's drive frame is notified and answers the pending info request for its address (43_dispatcher.md R269, R272). -/
def Obligations.MasterDriveFrames : Prop :=
  ∀ (dev : DevAddr) (ah al spd : Byte),
    MdFrame dev 0xE4 [0x10, ah, al, spd] (.locoDrive14M dev (ah.extractLsb' 0 6 ++ al) spd) ∧
    AnswersInfo (.locoDrive14M dev (ah.extractLsb' 0 6 ++ al) spd) (ah.extractLsb' 0 6 ++ al) 1
      (.drive .s14 (ah.extractLsb' 0 6 ++ al) spd) ∧
    MdFrame dev 0xE4 [0x11, ah, al, spd] (.locoDrive27M dev (ah.extractLsb' 0 6 ++ al) spd) ∧
    AnswersInfo (.locoDrive27M dev (ah.extractLsb' 0 6 ++ al) spd) (ah.extractLsb' 0 6 ++ al) 2
      (.drive .s27 (ah.extractLsb' 0 6 ++ al) spd) ∧
    MdFrame dev 0xE4 [0x12, ah, al, spd] (.locoDrive28M dev (ah.extractLsb' 0 6 ++ al) spd) ∧
    AnswersInfo (.locoDrive28M dev (ah.extractLsb' 0 6 ++ al) spd) (ah.extractLsb' 0 6 ++ al) 3
      (.drive .s28 (ah.extractLsb' 0 6 ++ al) spd) ∧
    MdFrame dev 0xE4 [0x13, ah, al, spd] (.locoDrive128M dev (ah.extractLsb' 0 6 ++ al) spd) ∧
    AnswersInfo (.locoDrive128M dev (ah.extractLsb' 0 6 ++ al) spd) (ah.extractLsb' 0 6 ++ al) 4
      (.drive .s128 (ah.extractLsb' 0 6 ++ al) spd)

/-- A master's function frame is notified and answers the pending function request for its address (43_dispatcher.md R270,
R272). -/
def Obligations.MasterFunctionFrames : Prop :=
  ∀ (dev : DevAddr) (ah al fb : Byte),
    MdFrame dev 0xE4 [0x20, ah, al, fb] (.locoFuncG1M dev (ah.extractLsb' 0 6 ++ al) (fb.extractLsb' 0 5)) ∧
    AnswersFunc (.locoFuncG1M dev (ah.extractLsb' 0 6 ++ al) (fb.extractLsb' 0 5)) (ah.extractLsb' 0 6 ++ al) 5
      (.funcG1 (ah.extractLsb' 0 6 ++ al) (fb.extractLsb' 0 5)) ∧
    MdFrame dev 0xE4 [0x21, ah, al, fb] (.locoFuncG2M dev (ah.extractLsb' 0 6 ++ al) (fb.extractLsb' 0 4)) ∧
    AnswersFunc (.locoFuncG2M dev (ah.extractLsb' 0 6 ++ al) (fb.extractLsb' 0 4)) (ah.extractLsb' 0 6 ++ al) 6
      (.funcG2 (ah.extractLsb' 0 6 ++ al) (fb.extractLsb' 0 4)) ∧
    MdFrame dev 0xE4 [0x22, ah, al, fb] (.locoFuncG3M dev (ah.extractLsb' 0 6 ++ al) (fb.extractLsb' 0 4)) ∧
    AnswersFunc (.locoFuncG3M dev (ah.extractLsb' 0 6 ++ al) (fb.extractLsb' 0 4)) (ah.extractLsb' 0 6 ++ al) 7
      (.funcG3 (ah.extractLsb' 0 6 ++ al) (fb.extractLsb' 0 4)) ∧
    MdFrame dev 0xE4 [0x23, ah, al, fb] (.locoFuncG4M dev (ah.extractLsb' 0 6 ++ al) fb) ∧
    AnswersFunc (.locoFuncG4M dev (ah.extractLsb' 0 6 ++ al) fb) (ah.extractLsb' 0 6 ++ al) 8
      (.funcGen (ah.extractLsb' 0 6 ++ al) 4 fb) ∧
    MdFrame dev 0xE4 [0x28, ah, al, fb] (.locoFuncG5M dev (ah.extractLsb' 0 6 ++ al) fb) ∧
    AnswersFunc (.locoFuncG5M dev (ah.extractLsb' 0 6 ++ al) fb) (ah.extractLsb' 0 6 ++ al) 8
      (.funcGen (ah.extractLsb' 0 6 ++ al) 5 fb)

/-- The Dispatcher runs the operation that the tables of `HDR_MAP` decode, as `exec` gives it; a Message that names no
direction is discarded; the tables of the reset state are those of the opcode table (43_dispatcher.md R230, 30_encoding.md
R117). -/
def Obligations.DispatchRunsDecodedFrame : Prop :=
  ∀ (m : Message) (s : State),
    (∀ i, decodeFrameBy s.params.hdrMap m = .ok i → dispatch m s = exec i s) ∧
    (∀ e, decodeFrameBy s.params.hdrMap m = .error e → dispatch m s = .next s) ∧
    (s.params.hdrMap = State.reset.params.hdrMap → decodeFrameBy s.params.hdrMap m = decodeFrame m)

/-- What the Dispatcher may write: the TX ring, the Slot Table, the pending flags, the power state, the CV cache and the
output ports; and it never reads `now` (43_dispatcher.md R274). -/
def Obligations.DispatcherFrame : Prop :=
  ∀ (m : Message) (s : State), ∃ t, dispatch m s = .next t ∧
    { t with txRing := s.txRing, slots := s.slots, pendInfo := s.pendInfo, pendFunc := s.pendFunc, power := s.power,
             lastCvValid := s.lastCvValid, lastCvIdx := s.lastCvIdx, lastCvVal := s.lastCvVal, out := s.out } = s ∧
    ∀ n, dispatch m { s with now := n } = .next { t with now := n }

/-! ### POLL -/

/-- POLL: not set up, it is rejected; else at most one Message is drained, dispatched if it verifies and dropped if not,
then the role's step, then abandonment (42_arbitrator.md R195, 43_dispatcher.md R231). At most two conditions are recorded
(60_exceptions.md R354); that they are the first two is the model's choice (assumption 13). -/
def Obligations.PollRunsThreeParts : Prop :=
  ∀ s : State, s.RxOk →
    (s.setupDone = false → exec .poll s = .next (s.rejected .eNotSetup 0 .notSetup)) ∧
    (s.setupDone = true → s.rxEmpty = true → exec .poll s = .next (s.roleStep.abandon.answered .ok 0)) ∧
    (s.setupDone = true → s.rxEmpty = false → ∃ m r u es, s.rxRing.Loses s.params.cap s.params.syncLag r m ∧
      (verify m = true → dispatch m { s with rxRing := r } = .next u) ∧
      (verify m = false → u = { s with rxRing := r }.blames [.checksum]) ∧
      u.roleStep.out.raised = s.out.raised ++ es ∧
      exec .poll s = .next ({ u.roleStep with
        out := { u.roleStep.out with raised := s.out.raised ++ es.take 2 } }.abandon.answered .ok 0))

/-- POLL in Idle role: the CORE becomes Master, or joins as a device when switching is enabled and a call byte was seen; in
SlaveInit role: the initialization sequence is queued and the CORE becomes Slave (42_arbitrator.md R196, R210). That this last
transition leaves the parser as it is, is the model's reading (assumption 24). -/
def Obligations.PollInIdleAndSlaveInit : Prop :=
  ∀ s : State, s.setupDone = true → s.rxEmpty = true → s.TxOk →
    (s.role = .idle → s.auto = true → s.cbSeen = true →
      exec .poll s = .next ({ s with role := .slaveInit, cbSeen := false, missCnt := 0 }.abandon.answered .ok 0)) ∧
    (s.role = .idle → s.auto = false ∨ s.cbSeen = false →
      exec .poll s = .next ({ s with role := .master, cbSeen := false, missCnt := 0 }.abandon.answered .ok 0)) ∧
    (s.role = .slaveInit → s.params.initSeq.length ≤ 8 →
      s.Replies (mkCb .poll s.myAddr :: (s.params.initSeq ++ [xorBytes s.params.initSeq]))
        (fun r es => ({ s with txRing := r, role := .slave, missCnt := 0, winT0 := s.now }.blames es).abandon.answered .ok 0)
        (exec .poll s))

/-- POLL in Master role before the next slot: a foreign call byte makes it yield when switching is enabled; else it waits
while it transmits and while the window is open and not elapsed (42_arbitrator.md R198 lines 1 to 3, R200, R201). The time
elapsed is the difference modulo `2^TIME_W`, across a wrap of the time too (00_scope.md R17). -/
def Obligations.PollMasterYieldsOrWaits : Prop :=
  (∀ s : State, s.now < 2 ^ s.params.timeW → s.winT0 < 2 ^ s.params.timeW →
    s.elapsed s.winT0 = (s.now + 2 ^ s.params.timeW - s.winT0) % 2 ^ s.params.timeW ∧
    (s.winT0 ≤ s.now → s.elapsed s.winT0 = s.now - s.winT0) ∧
    (s.now < s.winT0 → s.elapsed s.winT0 = s.now + 2 ^ s.params.timeW - s.winT0)) ∧
  ∀ s : State, s.setupDone = true → s.rxEmpty = true → s.role = .master →
    (s.cbSeen = true → s.auto = true →
      exec .poll s = .next
        (({ s with cbSeen := false, role := .slaveInit, missCnt := 0, winOpen := false }).cut.abandon.answered .ok 0)) ∧
    (s.cbSeen = false ∨ s.auto = false →
      s.txActive = true ∨ (s.winOpen = true ∧ s.elapsed s.winT0 < s.params.tWindow) →
      exec .poll s = .next ({ s with cbSeen := false }.abandon.answered .ok 0))

/-- POLL in Master role at the end of a slot: the next address, 31 wrapping to 1, is polled; a call byte of class POLL for
it is sent with mark 1 and opens a window (42_arbitrator.md R198 lines 3 to 5, R201, R202). -/
def Obligations.PollMasterPollsNextDevice : Prop :=
  ∀ (s : State) (a : DevAddr), s.setupDone = true → s.rxEmpty = true → s.role = .master →
    s.cbSeen = false ∨ s.auto = false → s.txActive = false →
    s.winOpen = false ∨ s.params.tWindow ≤ s.elapsed s.winT0 → s.txBuf.length = 10 →
    a = (if 31 ≤ s.pollAddr.toNat then 1 else s.pollAddr + 1) → a ≠ s.myAddr →
    exec .poll s = .next
      (({ s.slotEnded with cbSeen := false, pollAddr := a, callByte := mkCb .poll a }.loaded
        [mkCb .poll a] true true).abandon.answered .ok 0)

/-- POLL in Master role at the self slot: the opportunity is counted; the oldest TX Message is sent with mark 1 on its byte
0, which is kept where it is of class MSG and is the broadcast's where it is not; with the TX ring empty nothing is sent
(42_arbitrator.md R203). -/
def Obligations.PollMasterSelfSlot : Prop :=
  ∀ s : State, s.setupDone = true → s.rxEmpty = true → s.role = .master →
    s.cbSeen = false ∨ s.auto = false → s.txActive = false →
    s.winOpen = false ∨ s.params.tWindow ≤ s.elapsed s.winT0 → s.txBuf.length = 10 → s.TxOk →
    s.myAddr = (if 31 ≤ s.pollAddr.toNat then 1 else s.pollAddr + 1) →
    (s.txEmpty = true →
      exec .poll s = .next
        ({ s.slotEnded with cbSeen := false, pollAddr := s.myAddr, oppSeq := s.oppSeq + 1 }.abandon.answered .ok 0)) ∧
    (s.txEmpty = false → (∀ m ∈ s.txQueue, lengthOk m) → ∃ cb rest r, s.txRing.Loses s.params.cap s.params.syncLag r (cb :: rest) ∧
      exec .poll s = .next
        (({ s.slotEnded with cbSeen := false, pollAddr := s.myAddr, oppSeq := s.oppSeq + 1, txRing := r }.loaded
          ((if cbClass cb = CbClass.msg then cb else 0xC0) :: rest) true false).abandon.answered .ok 0))

/-- POLL in Slave role: a call byte seen restarts the missing-poll count; else an elapsed cycle is counted, up to 255; the
count at its bound with switching enabled makes the CORE take over as Master (42_arbitrator.md R212, R216, R218). That a
Message the takeover cuts is recorded before E_ROLE_DESYNC is the model's reading of 60_exceptions.md R354 (assumption 13). -/
def Obligations.PollSlaveCountsAndTakesOver : Prop :=
  ∀ s : State, s.setupDone = true → s.rxEmpty = true → s.role = .slave → 1 ≤ s.params.slaveCycleMax →
    (s.cbSeen = true →
      exec .poll s = .next ({ s with cbSeen := false, missCnt := 0, winT0 := s.now }.abandon.answered .ok 0)) ∧
    (s.cbSeen = false → s.elapsed s.winT0 < s.params.tWindow →
      s.auto = false ∨ s.missCnt.toNat < s.params.slaveCycleMax → exec .poll s = .next (s.abandon.answered .ok 0)) ∧
    (s.cbSeen = false → s.params.tWindow ≤ s.elapsed s.winT0 →
      s.auto = false ∨ min 255 (s.missCnt.toNat + 1) < s.params.slaveCycleMax →
      exec .poll s = .next
        ({ s with missCnt := BitVec.ofNat 8 (min 255 (s.missCnt.toNat + 1)), winT0 := s.now }.abandon.answered .ok 0)) ∧
    (s.cbSeen = false → s.auto = true → s.elapsed s.winT0 < s.params.tWindow →
      s.params.slaveCycleMax ≤ s.missCnt.toNat →
      exec .poll s = .next
        (({ s with role := .master, missCnt := 0, winOpen := false }.cut.blames [.roleDesync]).abandon.answered .ok 0)) ∧
    (s.cbSeen = false → s.auto = true → s.params.tWindow ≤ s.elapsed s.winT0 →
      s.params.slaveCycleMax ≤ min 255 (s.missCnt.toNat + 1) →
      exec .poll s = .next
        (({ s with role := .master, missCnt := 0, winT0 := s.now, winOpen := false }.cut.blames [.roleDesync]).abandon.answered
          .ok 0))

/-- Abandonment: a pending request is forgotten exactly when `ABANDON_OPPS` opportunities have passed since it was recorded,
modulo 256, so that no POLL leaves such a request pending (42_arbitrator.md R222). -/
def Obligations.PollAbandonsStaleRequests : Prop :=
  (∀ s : State,
    (s.abandon.pendInfo = true ↔
      s.pendInfo = true ∧ (s.oppSeq.toNat + 256 - s.pendInfoSeq.toNat) % 256 < s.params.abandonOpps) ∧
    (s.abandon.pendFunc = true ↔
      s.pendFunc = true ∧ (s.oppSeq.toNat + 256 - s.pendFuncSeq.toNat) % 256 < s.params.abandonOpps) ∧
    { s.abandon with pendInfo := s.pendInfo, pendFunc := s.pendFunc } = s) ∧
  (∀ s t : State, s.setupDone = true → exec .poll s = .next t →
    (t.pendInfo = true → (t.oppSeq.toNat + 256 - t.pendInfoSeq.toNat) % 256 < t.params.abandonOpps) ∧
    (t.pendFunc = true → (t.oppSeq.toNat + 256 - t.pendFuncSeq.toNat) % 256 < t.params.abandonOpps))

/-- All role transitions: POLL makes those of the table of 42_arbitrator.md R219, SETUP goes to Idle, and no other operation
writes `ROLE`. -/
def Obligations.RoleTransitions : Prop :=
  (∀ s t : State, s.setupDone = true → exec .poll s = .next t →
    t.role = (match s.role with
      | .idle => if s.auto = true ∧ s.cbSeen = true then .slaveInit else .master
      | .master => if s.auto = true ∧ s.cbSeen = true then .slaveInit else .master
      | .slaveInit => .slave
      | .slave => if s.auto = true ∧ s.params.slaveCycleMax ≤ s.countCycle.missCnt.toNat then .master else .slave)) ∧
  (∀ s t : State, s.setupDone = false → exec .poll s = .next t → t.role = s.role) ∧
  (∀ (arg0 : BitVec 16) (arg1 : BitVec 8) (arg2 : BitVec 18) (s t : State),
    1 ≤ arg0.toNat → arg0.toNat ≤ 31 → exec (.setup arg0 arg1 arg2) s = .next t → t.role = .idle) ∧
  (∀ (i : Instr) (s t : State), i ≠ .poll → (∀ a0 a1 a2, i ≠ .setup a0 a1 a2) → exec i s = .next t → t.role = s.role)

/-! ### Host commands -/

/-- SETUP re-establishes the reset state and writes the four configuration registers and `SETUP_DONE`; an address outside
1..31 is rejected with nothing changed (45_host_commands.md R305, 70_reset_and_hazards.md R385). That the time, the events
not yet taken and the model's count of free values stay is the model's choice (assumptions 1, 3, 7), and so are the reset
contents of the stores, which 10_state.md R50 leaves unspecified (assumption 6). -/
def Obligations.SetupConfigures : Prop :=
  ∀ (arg0 : BitVec 16) (arg1 : BitVec 8) (arg2 : BitVec 18) (k : Steps) (s : State),
    (1 ≤ arg0.toNat → arg0.toNat ≤ 31 → arg1.toNat % 4 = stepsNo k →
      exec (.setup arg0 arg1 arg2) s = .next
        ({ State.resetWith s.params with
            setupDone := true, myAddr := BitVec.ofNat 5 arg0.toNat, auto := arg1.getLsbD 2, stepsDef := k,
            notifyEn := arg2, now := s.now, inputs := s.inputs, out := s.out, lagDraws := s.lagDraws }.answered .ok 0)) ∧
    (arg0.toNat = 0 ∨ 31 < arg0.toNat → exec (.setup arg0 arg1 arg2) s = .next (s.rejected .eBadArg 0 .badArg))

/-- SET_POWER as master caches and broadcasts the state, short circuit as track power off; otherwise it queues a request and
changes no state, and a short circuit cannot be requested (45_host_commands.md R310). -/
def Obligations.SetPowerCommand : Prop :=
  ∀ (s : State), s.setupDone = true → s.TxOk →
    (∀ (arg0 : BitVec 16), 4 < arg0.toNat → exec (.setPower arg0) s = .next (s.rejected .eBadArg 0 .badArg)) ∧
    (s.role = .master →
      s.Pushes (0xC0 :: powerBroadcast s.params.hdrMap .normal) (fun r => { s with txRing := r, power := .normal }.answered .ok 0)
        (exec (.setPower 0) s) ∧
      s.Pushes (0xC0 :: powerBroadcast s.params.hdrMap .estop) (fun r => { s with txRing := r, power := .estop }.answered .ok 0)
        (exec (.setPower 1) s) ∧
      s.Pushes (0xC0 :: powerBroadcast s.params.hdrMap .off) (fun r => { s with txRing := r, power := .off }.answered .ok 0)
        (exec (.setPower 2) s) ∧
      s.Pushes (0xC0 :: powerBroadcast s.params.hdrMap .short) (fun r => { s with txRing := r, power := .short }.answered .ok 0)
        (exec (.setPower 3) s) ∧
      s.Pushes (0xC0 :: powerBroadcast s.params.hdrMap .service) (fun r => { s with txRing := r, power := .service }.answered .ok 0)
        (exec (.setPower 4) s)) ∧
    (s.role ≠ .master →
      (∀ x ∈ [(0, Power.normal), (1, .estop), (2, .off), (4, .service)], ∃ f, powerRequest s.params.hdrMap x.2 = some f ∧
        s.Pushes (mkCb .poll s.myAddr :: f) (fun r => { s with txRing := r }.answered .ok 0) (exec (.setPower x.1) s)) ∧
      exec (.setPower 3) s = .next (s.rejected .eBadArg 0 .badArg)) ∧
    [Power.normal, .estop, .off, .short, .service].map (powerBroadcast defaultHdrMap) =
      [[0x61, 0x01, 0x60], [0x81, 0x00, 0x81], [0x61, 0x00, 0x61], [0x61, 0x00, 0x61], [0x61, 0x02, 0x63]] ∧
    [Power.normal, .estop, .off, .service].map (powerRequest defaultHdrMap) =
      [some [0x21, 0x81, 0xA0], some [0x80, 0x80], some [0x21, 0x80, 0xA1], some [0x21, 0x10, 0x31]]

/-- The two queries, RELEASE_SLOT and PEND_TIMEOUT (45_host_commands.md R311, R323, R325). -/
def Obligations.QueriesReleaseAndTimeout : Prop :=
  ∀ (arg0 : BitVec 16) (s : State), s.setupDone = true → s.slots.length = 31 →
    exec .getPower s = .next (s.answered .ok
      (match s.power with | .normal => 0 | .estop => 1 | .off => 2 | .short => 3 | .service => 4)) ∧
    exec .getRole s = .next (s.answered .ok
      (match s.role with | .idle => 0 | .master => 1 | .slaveInit => 2 | .slave => 3)) ∧
    (arg0.toNat ≤ 30 → ∃ slots, s.SlotSet arg0.toNat none slots ∧
      exec (.releaseSlot arg0) s = .next ({ s with slots := slots }.answered .ok 0)) ∧
    (30 < arg0.toNat → exec (.releaseSlot arg0) s = .next (s.rejected .eBadArg 0 .badArg)) ∧
    exec (.pendTimeout 0) s = .next ({ s with pendInfo := false }.answered .ok 0) ∧
    exec (.pendTimeout 1) s = .next ({ s with pendFunc := false }.answered .ok 0) ∧
    (1 < arg0.toNat → exec (.pendTimeout arg0) s = .next (s.rejected .eBadArg 0 .badArg))

/-- LOCO_CLAIM takes the address for the local slot or answers its holder; LOCO_BUSY_NOTE queues a busy notice for a held
address and answers 0xFF for a free one (45_host_commands.md R312, R314). -/
def Obligations.ClaimAndBusyNote : Prop :=
  ∀ (arg0 : BitVec 16) (loco : LocoAddr) (s : State), s.setupDone = true → s.myAddr ≠ 0 → s.SlotsOk → s.TxOk →
    (16383 < arg0.toNat →
      exec (.locoClaim arg0) s = .next (s.rejected .eBadArg 0 .badArg) ∧
      exec (.locoBusyNote arg0) s = .next (s.rejected .eBadArg 0 .badArg)) ∧
    (∀ t : Nat, frameBusy defaultHdrMap loco t = encodeFrame 0xE4 [0x40, locoHigh loco, locoLow loco, BitVec.ofNat 8 t]) ∧
    (arg0.toNat = loco.toNat →
      (s.FreeFor (s.myAddr.toNat - 1) loco → ∃ slots, s.SlotSet (s.myAddr.toNat - 1) (some loco) slots ∧
        exec (.locoClaim arg0) s =
          .next ({ s with slots := slots }.answered .ok (BitVec.ofNat 8 (s.myAddr.toNat - 1)))) ∧
      (∀ t < 31, t ≠ s.myAddr.toNat - 1 → s.slots.getD t none = some loco →
        exec (.locoClaim arg0) s = .next (s.rejected .eBusy (BitVec.ofNat 8 t) .busy)) ∧
      (∀ t < 31, s.slots.getD t none = some loco →
        s.Pushes (s.hostCb :: frameBusy s.params.hdrMap loco t)
          (fun r => { s with txRing := r }.answered .ok (BitVec.ofNat 8 t)) (exec (.locoBusyNote arg0) s)) ∧
      ((∀ t < 31, s.slots.getD t none ≠ some loco) → exec (.locoBusyNote arg0) s = .next (s.answered .ok 0xFF)))

/-- PUSH_DRIVE and PUSH_FUNC: the frame they queue, the claim they make as master, the arguments they reject
(45_host_commands.md R313, R315; 30_encoding.md R127). -/
def Obligations.PushDriveAndFunction : Prop :=
  ∀ (arg0 : BitVec 16) (arg1 : BitVec 8) (arg2 : BitVec 18) (loco : LocoAddr) (s : State),
    s.setupDone = true → s.myAddr ≠ 0 → s.SlotsOk → s.TxOk →
    (16383 < arg0.toNat ∨ 4 < arg2.toNat →
      exec (.pushDrive arg0 arg1 arg2) s = .next (s.rejected .eBadArg 0 .badArg)) ∧
    (16383 < arg0.toNat ∨ arg2.toNat = 0 ∨ 5 < arg2.toNat →
      exec (.pushFunc arg0 arg1 arg2) s = .next (s.rejected .eBadArg 0 .badArg)) ∧
    (arg0.toNat = loco.toNat →
      (∀ k : Steps, arg2.toNat = stepsNo k ∨ (arg2.toNat = 4 ∧ k = s.stepsDef) →
        s.ClaimsAndPushes (.pushDrive arg0 arg1 arg2) loco (frameDrive s.params.hdrMap k loco arg1)) ∧
      (∀ x ∈ [(1, FuncGroup.g1, 0x1F#8), (2, .g2, 0x0F#8), (3, .g3, 0x0F#8), (4, .g4, 0xFF#8), (5, .g5, 0xFF#8)],
        arg2.toNat = x.1 →
        s.ClaimsAndPushes (.pushFunc arg0 arg1 arg2) loco (frameFunc s.params.hdrMap x.2.1 loco (arg1 &&& x.2.2)))) ∧
    (∀ (k : Steps) (spd : Byte), frameDrive defaultHdrMap k loco spd =
      encodeFrame 0xE4 [BitVec.ofNat 8 (0x10 + stepsNo k), locoHigh loco, locoLow loco, spd]) ∧
    ∀ (fb : Byte), [FuncGroup.g1, .g2, .g3, .g4, .g5].map (fun g => frameFunc defaultHdrMap g loco fb) =
      [0x20, 0x21, 0x22, 0x23, 0x28].map (fun sub => encodeFrame 0xE4 [sub, locoHigh loco, locoLow loco, fb])

/-- GET_LOCO_INFO and GET_LOCO_FUNC: at most one request of a kind is outstanding; a second one is rejected with nothing
changed, and the two kinds do not block each other (45_host_commands.md R316, R317; 60_exceptions.md R345). -/
def Obligations.InfoRequestsOneOutstanding : Prop :=
  ∀ (arg0 : BitVec 16) (loco : LocoAddr) (s : State), s.setupDone = true → s.TxOk →
    (16383 < arg0.toNat →
      exec (.getLocoInfo arg0) s = .next (s.rejected .eBadArg 0 .badArg) ∧
      exec (.getLocoFunc arg0) s = .next (s.rejected .eBadArg 0 .badArg)) ∧
    (arg0.toNat = loco.toNat →
      (s.pendInfo = true → exec (.getLocoInfo arg0) s = .next (s.rejected .ePending 0 .pending)) ∧
      (s.pendInfo = false →
        s.Pushes (s.hostCb :: frameInfoReq s.params.hdrMap loco)
          (fun r => { s with txRing := r, pendInfo := true, pendInfoAddr := loco, pendInfoSeq := s.oppSeq }.answered .ok 0)
          (exec (.getLocoInfo arg0) s)) ∧
      (s.pendFunc = true → exec (.getLocoFunc arg0) s = .next (s.rejected .ePending 0 .pending)) ∧
      (s.pendFunc = false →
        s.Pushes (s.hostCb :: frameFuncReq s.params.hdrMap loco)
          (fun r => { s with txRing := r, pendFunc := true, pendFuncAddr := loco, pendFuncSeq := s.oppSeq }.answered .ok 0)
          (exec (.getLocoFunc arg0) s))) ∧
    frameInfoReq defaultHdrMap loco = encodeFrame 0xE3 [0x00, locoHigh loco, locoLow loco] ∧
    frameFuncReq defaultHdrMap loco = encodeFrame 0xE3 [0x07, locoHigh loco, locoLow loco]

/-- The turnout, feedback and CV-value pushes: each queues its one frame, and an argument out of range is rejected
(45_host_commands.md R318 to R321). -/
def Obligations.TurnoutFeedbackCvPushes : Prop :=
  ∀ (arg0 : BitVec 16) (arg1 cv : Byte) (t : BitVec 10) (s : State), s.setupDone = true → s.TxOk →
    s.Pushes (s.hostCb :: frameTurnoutFb s.params.hdrMap (arg0.extractLsb' 8 8) (arg0.extractLsb' 0 8))
      (fun r => { s with txRing := r }.answered .ok 0) (exec (.pushTurnoutStatus arg0) s) ∧
    s.Pushes (s.hostCb :: frameTurnoutFb s.params.hdrMap (arg0.extractLsb' 8 8) (arg0.extractLsb' 0 8))
      (fun r => { s with txRing := r }.answered .ok 0) (exec (.pushFeedback arg0) s) ∧
    (1023 < arg0.toNat → exec (.pushTurnoutCmd arg0 arg1) s = .next (s.rejected .eBadArg 0 .badArg)) ∧
    (arg0.toNat = t.toNat →
      s.Pushes (s.hostCb :: frameTurnoutCmd s.params.hdrMap t (arg1.getLsbD 0) (arg1.getLsbD 1))
        (fun r => { s with txRing := r }.answered .ok 0) (exec (.pushTurnoutCmd arg0 arg1) s)) ∧
    (255 < arg0.toNat → exec (.setCvReadValue arg0 arg1) s = .next (s.rejected .eBadArg 0 .badArg)) ∧
    (arg0.toNat = cv.toNat →
      s.Pushes (s.hostCb :: frameCvResult s.params.hdrMap cv arg1)
        (fun r => { s with txRing := r, lastCvValid := true, lastCvIdx := cv, lastCvVal := arg1 }.answered .ok 0)
        (exec (.setCvReadValue arg0 arg1) s)) ∧
    (∀ a d : Byte, frameTurnoutFb defaultHdrMap a d = encodeFrame 0x42 [a, d]) ∧
    (∀ pos act : Bool, frameTurnoutCmd defaultHdrMap t pos act = encodeFrame 0x52 [t.extractLsb' 2 8,
      0b1000#4 ++ BitVec.ofBool act ++ t.extractLsb' 0 2 ++ BitVec.ofBool pos]) ∧
    frameCvResult defaultHdrMap cv arg1 = encodeFrame 0x63 [0x14, cv, arg1]

/-- The two negative acknowledgements of a CV read: each queues its one frame and writes no other state
(45_host_commands.md R322, R324). That the command raises its condition in the step that queues the frame is the model's
reading (assumption 19). -/
def Obligations.CvNackPushes : Prop :=
  ∀ s : State, s.setupDone = true → s.TxOk →
    s.Pushes (s.hostCb :: frameCvNack s.params.hdrMap) (fun r => ({ s with txRing := r }.blames [.cvFail]).answered .ok 0)
      (exec .setCvNack s) ∧
    s.Pushes (s.hostCb :: frameCvNackSc s.params.hdrMap) (fun r => ({ s with txRing := r }.blames [.cvFailSc]).answered .ok 0)
      (exec .setCvNackSc s) ∧
    frameCvNack defaultHdrMap = [0x61, 0x13, 0x72] ∧ frameCvNackSc defaultHdrMap = [0x61, 0x12, 0x73]

/-- Host commands that fail: a reserved code before any other check, any command but SETUP before SETUP, and in every case a
status with its condition and no state changed (45_host_commands.md R306). -/
def Obligations.FailedCommandsChangeNothing : Prop :=
  (∀ (op : BitVec 5) (s : State), exec (.hostReserved op) s = .next (s.rejected .eBadArg 0 .badArg)) ∧
  (∀ (c : HostCmd) (s : State), 18 < c.op.toNat → exec (decodeHost c) s = .next (s.rejected .eBadArg 0 .badArg)) ∧
  (∀ (c : HostCmd) (s : State), c.op.toNat ≤ 18 → c.op ≠ 0 → s.setupDone = false →
    exec (decodeHost c) s = .next (s.rejected .eNotSetup 0 .notSetup)) ∧
  (∀ (c : HostCmd) (s t : State), exec (decodeHost c) s = .next t →
    (∃ v, t.out.cmd = some (.ok, v)) ∨ (∃ st v e, st.condition = some e ∧ t = s.rejected st v e))

/-! ### The machine -/

/-- A step runs the decoded operation on the state that took the event: the time sampled, the ports quiet, the event gone,
and of the rings only the index copies that the agent reads moved, as 10_state.md R48 says (00_scope.md R16, R17; 20_memory.md
R80, R84); with no event left only the ports go quiet. That a step takes its event from a list in the state, and that the copies
move at its start, is the model's (assumptions 1, 7). -/
def Obligations.StepRunsDecodedOperation : Prop :=
  (∀ (s : State) (now : Nat) (e : PortEvent) (rest : List Instant) (i : Instr),
    nextEvent s.inputs = some (now, e, rest) → decode (.port e) = .ok i →
    step s = exec i (s.accept now e rest) ∧
    (s.accept now e rest).now = now % 2 ^ s.params.timeW ∧ (s.accept now e rest).inputs = rest ∧
    (s.accept now e rest).out = Outputs.quiet ∧
    { s.accept now e rest with now := s.now, inputs := s.inputs, out := s.out, rxRing := s.rxRing, txRing := s.txRing,
                               lagDraws := s.lagDraws } = s ∧
    (match e with
      | .rx _ _ =>
        s.rxRing.RdFollows s.params.cap s.params.syncLag (s.accept now e rest).rxRing ∧
        (s.role = .slave ∨ s.role = .slaveInit →
          s.txRing.WrFollows s.params.cap s.params.syncLag (s.accept now e rest).txRing) ∧
        (s.role = .idle ∨ s.role = .master → (s.accept now e rest).txRing = s.txRing)
      | .txReady => (s.accept now e rest).rxRing = s.rxRing ∧ (s.accept now e rest).txRing = s.txRing
      | .cmd _ =>
        s.rxRing.WrFollows s.params.cap s.params.syncLag (s.accept now e rest).rxRing ∧
        (s.role ≠ .master → s.txRing.RdFollows s.params.cap s.params.syncLag (s.accept now e rest).txRing) ∧
        (s.role = .master → ∃ r, s.txRing.WrFollows s.params.cap s.params.syncLag r ∧
          r.RdFollows s.params.cap s.params.syncLag (s.accept now e rest).txRing))) ∧
  (∀ s : State, nextEvent s.inputs = none → step s = .next { s with inputs := [], out := Outputs.quiet })

/-- Events that coincide, all three or any two, are taken in the order RXI, TXI, HOST, each a whole step (20_memory.md R88,
60_exceptions.md R354). That coinciding events stand in one `Instant` of `inputs` and sample one time is the model's reading
(assumptions 1, 2). -/
def Obligations.CoincidingEventsInOrder : Prop :=
  ∀ (s : State) (now : Nat) (mark : Bool) (b : Byte) (c : HostCmd) (rest : List Instant),
    (s.inputs = { now := now, rx := some (mark, b), txReady := true, cmd := some c } :: rest →
      ∃ s1 s2 s3,
        exec (decodePort (.rx mark b)) (s.accept now (.rx mark b)
          ({ now := now, rx := none, txReady := true, cmd := some c } :: rest)) = .next s1 ∧
        exec .txi (s1.accept now .txReady ({ now := now, rx := none, txReady := false, cmd := some c } :: rest)) = .next s2 ∧
        exec (decodeHost c) (s2.accept now (.cmd c)
          ({ now := now, rx := none, txReady := false, cmd := none } :: rest)) = .next s3 ∧
        step s = .next s1 ∧ step s1 = .next s2 ∧ step s2 = .next s3) ∧
    (s.inputs = { now := now, rx := some (mark, b), txReady := true, cmd := none } :: rest →
      ∃ s1 s2,
        exec (decodePort (.rx mark b)) (s.accept now (.rx mark b)
          ({ now := now, rx := none, txReady := true, cmd := none } :: rest)) = .next s1 ∧
        exec .txi (s1.accept now .txReady ({ now := now, rx := none, txReady := false, cmd := none } :: rest)) = .next s2 ∧
        step s = .next s1 ∧ step s1 = .next s2) ∧
    (s.inputs = { now := now, rx := some (mark, b), txReady := false, cmd := some c } :: rest →
      ∃ s1 s2,
        exec (decodePort (.rx mark b)) (s.accept now (.rx mark b)
          ({ now := now, rx := none, txReady := false, cmd := some c } :: rest)) = .next s1 ∧
        exec (decodeHost c) (s1.accept now (.cmd c)
          ({ now := now, rx := none, txReady := false, cmd := none } :: rest)) = .next s2 ∧
        step s = .next s1 ∧ step s1 = .next s2) ∧
    (s.inputs = { now := now, rx := none, txReady := true, cmd := some c } :: rest →
      ∃ s1 s2,
        exec .txi (s.accept now .txReady ({ now := now, rx := none, txReady := false, cmd := some c } :: rest)) = .next s1 ∧
        exec (decodeHost c) (s1.accept now (.cmd c)
          ({ now := now, rx := none, txReady := false, cmd := none } :: rest)) = .next s2 ∧
        step s = .next s1 ∧ step s1 = .next s2)

/-- Who writes what: RXI, TXI, POLL and the other host commands write the elements of 10_state.md R51 only; of them POLL
alone notifies, and at most once (42_arbitrator.md R184, 45_host_commands.md R309); and no operation raises more than two
conditions (60_exceptions.md R354; assumption 13). -/
def Obligations.WritersPerAgent : Prop :=
  (∀ (mark : Bool) (b : Byte) (s t : State), exec (.rxi mark b) s = .next t →
    { t with cbSeen := s.cbSeen, rxaSt := s.rxaSt, rxaRem := s.rxaRem, rxaCb := s.rxaCb, rxRing := s.rxRing,
             winOpen := s.winOpen, winT0 := s.winT0, oppSeq := s.oppSeq, txRing := s.txRing, txBuf := s.txBuf,
             txLen := s.txLen, txIdx := s.txIdx, txMark0 := s.txMark0, txOpensWin := s.txOpensWin,
             txActive := s.txActive, out := s.out } = s ∧
    (s.cbSeen = true → t.cbSeen = true) ∧ (t.winOpen = true → s.winOpen = true) ∧ t.rxRing.rd = s.rxRing.rd ∧
    { t.txRing with rd := s.txRing.rd, rdSeen := s.txRing.rdSeen } = s.txRing ∧
    (s.role = .idle ∨ s.role = .master →
      t.oppSeq = s.oppSeq ∧ t.txRing = s.txRing ∧ t.txBuf = s.txBuf ∧ t.txLen = s.txLen ∧ t.txIdx = s.txIdx ∧
      t.txMark0 = s.txMark0 ∧ t.txOpensWin = s.txOpensWin ∧ t.txActive = s.txActive) ∧
    t.out.ntf = s.out.ntf) ∧
  (∀ s t : State, exec .txi s = .next t →
    { t with txIdx := s.txIdx, txActive := s.txActive, txOpensWin := s.txOpensWin, winOpen := s.winOpen,
             winT0 := s.winT0, rxaSt := s.rxaSt, rxaCb := s.rxaCb, out := s.out } = s ∧
    (t.txActive = true → s.txActive = true) ∧ (t.txOpensWin = true → s.txOpensWin = true) ∧
    (s.winOpen = true → t.winOpen = true) ∧ t.out.ntf = s.out.ntf) ∧
  (∀ s t : State, exec .poll s = .next t →
    t.setupDone = s.setupDone ∧ t.myAddr = s.myAddr ∧ t.auto = s.auto ∧ t.stepsDef = s.stepsDef ∧
    t.notifyEn = s.notifyEn ∧ t.rxaRem = s.rxaRem ∧ t.rxaCb = s.rxaCb ∧ t.rxRing.mem = s.rxRing.mem ∧
    t.rxRing.wr = s.rxRing.wr ∧ (t.cbSeen = true → s.cbSeen = true) ∧ (t.winOpen = true → s.winOpen = true) ∧
    (t.rxaSt = s.rxaSt ∨ t.rxaSt = .idle) ∧
    (s.role ≠ .master → t.oppSeq = s.oppSeq ∧ t.txRing.rd = s.txRing.rd ∧ t.txActive = s.txActive ∧
      t.txBuf = s.txBuf ∧ t.txLen = s.txLen ∧ t.txIdx = s.txIdx) ∧
    ∃ ns, ns.length ≤ 1 ∧ t.out.ntf = s.out.ntf ++ ns) ∧
  (∀ (c : HostCmd) (s t : State), c.op ≠ 0 → c.op ≠ 1 → exec (decodeHost c) s = .next t →
    { t with txRing := s.txRing, slots := s.slots, pendInfo := s.pendInfo, pendInfoAddr := s.pendInfoAddr,
             pendInfoSeq := s.pendInfoSeq, pendFunc := s.pendFunc, pendFuncAddr := s.pendFuncAddr,
             pendFuncSeq := s.pendFuncSeq, power := s.power, lastCvValid := s.lastCvValid, lastCvIdx := s.lastCvIdx,
             lastCvVal := s.lastCvVal, out := s.out } = s ∧
    t.txRing.rd = s.txRing.rd ∧ t.out.ntf = s.out.ntf) ∧
  (∀ (i : Instr) (s t : State), exec i s = .next t → ∃ es, es.length ≤ 2 ∧ t.out.raised = s.out.raised ++ es)

/-- The invariants of 10_state.md R52 and R42 are kept by every step, from every state that has them, for every choice of
the parameters in range and of the free values. -/
def Obligations.EveryStepKeepsInvariant : Prop :=
  ∀ s t : State, s.Inv → step s = .next t → t.Inv

/-- What reset leaves (10_state.md R50, 70_reset_and_hazards.md R380, R381), and that it meets the invariants of R52 for
every choice of the parameters in range. -/
def Obligations.ResetState : Prop :=
  State.reset = State.resetWith Params.default ∧
  ∀ p : Params,
    (p.inRange = true → (State.resetWith p).Inv) ∧
    (State.resetWith p).setupDone = false ∧ (State.resetWith p).myAddr = 0 ∧ (State.resetWith p).auto = false ∧
    (State.resetWith p).stepsDef = .s14 ∧ (State.resetWith p).notifyEn = 0 ∧ (State.resetWith p).role = .idle ∧
    (State.resetWith p).pollAddr = 0 ∧ (State.resetWith p).callByte = 0x00 ∧ (State.resetWith p).missCnt = 0 ∧
    (State.resetWith p).winOpen = false ∧ (State.resetWith p).winT0 = 0 ∧ (State.resetWith p).oppSeq = 0 ∧
    (State.resetWith p).cbSeen = false ∧ (State.resetWith p).rxaSt = .idle ∧ (State.resetWith p).rxaRem = 0 ∧
    (State.resetWith p).rxaCb = 0x00 ∧
    (State.resetWith p).rxRing.wr = 0 ∧ (State.resetWith p).rxRing.rd = 0 ∧ (State.resetWith p).rxRing.curOpen = false ∧
    (State.resetWith p).rxRing.curPos = 0 ∧ (State.resetWith p).rxRing.wrSeen = 0 ∧ (State.resetWith p).rxRing.rdSeen = 0 ∧
    (State.resetWith p).txRing.wr = 0 ∧ (State.resetWith p).txRing.rd = 0 ∧ (State.resetWith p).txRing.wrSeen = 0 ∧
    (State.resetWith p).txRing.rdSeen = 0 ∧
    (State.resetWith p).txActive = false ∧ (State.resetWith p).txLen = 0 ∧ (State.resetWith p).txIdx = 0 ∧
    (State.resetWith p).txMark0 = false ∧ (State.resetWith p).txOpensWin = false ∧
    (∀ t < 31, (State.resetWith p).slots.getD t none = none) ∧
    (State.resetWith p).pendInfo = false ∧ (State.resetWith p).pendInfoAddr = 0 ∧ (State.resetWith p).pendInfoSeq = 0 ∧
    (State.resetWith p).pendFunc = false ∧ (State.resetWith p).pendFuncAddr = 0 ∧ (State.resetWith p).pendFuncSeq = 0 ∧
    (State.resetWith p).power = p.pwrReset ∧ (State.resetWith p).lastCvValid = false ∧
    (State.resetWith p).lastCvIdx = 0 ∧ (State.resetWith p).lastCvVal = 0 ∧
    (State.resetWith p).out = Outputs.quiet ∧ Outputs.quiet.tx = none ∧ Outputs.quiet.txDone = false ∧
    Outputs.quiet.ntf = [] ∧ Outputs.quiet.raised = [] ∧
    (State.resetWith p).dir = false ∧ (State.resetWith p).rxEmpty = true ∧ (State.resetWith p).txEmpty = true ∧
    (1 ≤ p.cap → (State.resetWith p).rxFull = false ∧ (State.resetWith p).txFull = false)

/-- Nothing halts: in every state every operation answers a next state, and so does every step (60_exceptions.md R352). -/
def Obligations.NothingHalts : Prop :=
  (∀ (i : Instr) (s : State), ∃ t, exec i s = .next t) ∧ (∀ s : State, ∃ t, step s = .next t)
end

