-- ==== Sys2Proof/Laws/PerInstr.lean ====
section
/-! SUPPORT. The family CodeFits: what every operation's bits look like, one lemma per constructor. -/

namespace Sys2Proof.Laws

/-- Bits as the bus and the host port carry them: a marked byte has good parity (30_encoding.md R104); a Message has 3 to 10
bytes, a call byte of good parity, and verifies (30_encoding.md R100, R102). -/
def codeFits : Code → Bool
  | .port (.rx true b) => Machine.cbOk b
  | .port (.rx false _) => true
  | .port .txReady => true
  | .port (.cmd _) => true
  | .frame m => decide (3 ≤ m.length) && decide (m.length ≤ Config.msgMax) && Machine.cbOk (Machine.byteAt m 0) &&
      Machine.verify m

/-- The bits of a well-formed operation fit. -/
def CodeFits.Statement (i : Instr) : Prop := i.WellFormed = true → ∀ c, encode i = some c → codeFits c = true

theorem xorBytes_append (l m : List Byte) : Machine.xorBytes (l ++ m) = Machine.xorBytes l ^^^ Machine.xorBytes m := by
  suffices h : ∀ (m : List Byte) (a : Byte), m.foldl (· ^^^ ·) a = a ^^^ m.foldl (· ^^^ ·) 0 by
    simp only [Machine.xorBytes, List.foldl_append]
    exact h m _
  intro m
  induction m with
  | nil => intro a; simp
  | cons b m ih =>
    intro a
    rw [List.foldl_cons, List.foldl_cons, ih, ih ((0 : Byte) ^^^ b), show (0 : Byte) ^^^ b = b from BitVec.zero_xor,
      BitVec.xor_assoc]

/-- A built Message verifies (40_wire_codec.md R142, R144). -/
theorem verify_messageOf (cb hdr : Byte) (data : List Byte) : Machine.verify (messageOf cb hdr data) = true := by
  have h : Machine.xorBytes (Machine.encodeFrame hdr data) = 0 := by
    have := xorBytes_append (hdr :: data) [Machine.computeChecksum hdr data]
    rw [show Machine.encodeFrame hdr data = hdr :: data ++ [Machine.computeChecksum hdr data] from rfl, this]
    simp [Machine.computeChecksum, Machine.xorBytes]
  simp [Machine.verify, messageOf, h]

theorem cbOk_mkCb (cls : CbClass) (a : DevAddr) : Machine.cbOk (Machine.mkCb cls a) = true := by
  cases cls <;> revert a <;> decide

theorem messageOf_fits (cls : CbClass) (dev : DevAddr) (hdr : Byte) {data : List Byte} (h : data.length ≤ 7) :
    codeFits (.frame (messageOf (Machine.mkCb cls dev) hdr data)) = true := by
  have hl : (messageOf (Machine.mkCb cls dev) hdr data).length = data.length + 3 := by
    simp [messageOf, Machine.encodeFrame]
  have hc : Machine.cbOk (Machine.byteAt (messageOf (Machine.mkCb cls dev) hdr data) 0) = true := cbOk_mkCb cls dev
  simp only [codeFits, hl, hc, verify_messageOf, Config.msgMax, Bool.and_true, Bool.and_eq_true, decide_eq_true_eq]
  omega

/-- A polled device's Message of at most seven data bytes fits. -/
theorem dmCode_fits (dev : DevAddr) (hdr : Byte) {data : List Byte} (h : data.length ≤ 7) :
    ∀ c, dmCode dev hdr data = some c → codeFits c = true := by
  intro c hc
  cases hc
  exact messageOf_fits .poll dev hdr h

/-- A master's Message of at most seven data bytes fits. -/
theorem mdCode_fits (dev : DevAddr) (hdr : Byte) {data : List Byte} (h : data.length ≤ 7) :
    ∀ c, mdCode dev hdr data = some c → codeFits c = true := by
  intro c hc
  cases hc
  exact messageOf_fits .msg dev hdr h

theorem CodeFits.cbPoll (p : Bool) (addr : DevAddr) : CodeFits.Statement (.cbPoll p addr) :=
    fun h _ hc => by cases hc; exact h
theorem CodeFits.cbAckreq (p : Bool) (addr : DevAddr) : CodeFits.Statement (.cbAckreq p addr) :=
    fun h _ hc => by cases hc; exact h
theorem CodeFits.cbMsg (p : Bool) (addr : DevAddr) : CodeFits.Statement (.cbMsg p addr) :=
    fun h _ hc => by cases hc; exact h
theorem CodeFits.cbReserved (p : Bool) (addr : DevAddr) : CodeFits.Statement (.cbReserved p addr) :=
    fun h _ hc => by cases hc; exact h
theorem CodeFits.ackResp (dev : DevAddr) : CodeFits.Statement (.ackResp dev) :=
    fun _ => dmCode_fits _ _ (Nat.le_of_ble_eq_true rfl)
theorem CodeFits.pwrServiceReq (dev : DevAddr) : CodeFits.Statement (.pwrServiceReq dev) :=
    fun _ => dmCode_fits _ _ (Nat.le_of_ble_eq_true rfl)
theorem CodeFits.devInit (dev : DevAddr) : CodeFits.Statement (.devInit dev) :=
    fun _ => dmCode_fits _ _ (Nat.le_of_ble_eq_true rfl)
theorem CodeFits.pwrOffReq (dev : DevAddr) : CodeFits.Statement (.pwrOffReq dev) :=
    fun _ => dmCode_fits _ _ (Nat.le_of_ble_eq_true rfl)
theorem CodeFits.pwrOnReq (dev : DevAddr) : CodeFits.Statement (.pwrOnReq dev) :=
    fun _ => dmCode_fits _ _ (Nat.le_of_ble_eq_true rfl)
theorem CodeFits.cvReadDirect (dev : DevAddr) (cv : Byte) : CodeFits.Statement (.cvReadDirect dev cv) :=
    fun _ => dmCode_fits _ _ (Nat.le_of_ble_eq_true rfl)
theorem CodeFits.cvWriteDirect (dev : DevAddr) (cv : Byte) (val : Byte) : CodeFits.Statement (.cvWriteDirect dev cv val) :=
    fun _ => dmCode_fits _ _ (Nat.le_of_ble_eq_true rfl)
theorem CodeFits.turnoutStatusReq (dev : DevAddr) (grp : Byte) (nib : Bool) : CodeFits.Statement (.turnoutStatusReq dev grp nib) :=
    fun _ => dmCode_fits _ _ (Nat.le_of_ble_eq_true rfl)
theorem CodeFits.turnoutCmd (dev : DevAddr) (t : BitVec 10) (pos : Bool) (act : Bool) : CodeFits.Statement (.turnoutCmd dev t pos act) :=
    fun _ => dmCode_fits _ _ (Nat.le_of_ble_eq_true rfl)
theorem CodeFits.estopReq (dev : DevAddr) : CodeFits.Statement (.estopReq dev) :=
    fun _ => dmCode_fits _ _ (Nat.le_of_ble_eq_true rfl)
theorem CodeFits.locoInfoReq (dev : DevAddr) (loco : LocoAddr) : CodeFits.Statement (.locoInfoReq dev loco) :=
    fun _ => dmCode_fits _ _ (Nat.le_of_ble_eq_true rfl)
theorem CodeFits.locoFuncReq (dev : DevAddr) (loco : LocoAddr) : CodeFits.Statement (.locoFuncReq dev loco) :=
    fun _ => dmCode_fits _ _ (Nat.le_of_ble_eq_true rfl)
theorem CodeFits.locoDrive14 (dev : DevAddr) (loco : LocoAddr) (spd : Byte) : CodeFits.Statement (.locoDrive14 dev loco spd) :=
    fun _ => dmCode_fits _ _ (Nat.le_of_ble_eq_true rfl)
theorem CodeFits.locoDrive27 (dev : DevAddr) (loco : LocoAddr) (spd : Byte) : CodeFits.Statement (.locoDrive27 dev loco spd) :=
    fun _ => dmCode_fits _ _ (Nat.le_of_ble_eq_true rfl)
theorem CodeFits.locoDrive28 (dev : DevAddr) (loco : LocoAddr) (spd : Byte) : CodeFits.Statement (.locoDrive28 dev loco spd) :=
    fun _ => dmCode_fits _ _ (Nat.le_of_ble_eq_true rfl)
theorem CodeFits.locoDrive128 (dev : DevAddr) (loco : LocoAddr) (spd : Byte) : CodeFits.Statement (.locoDrive128 dev loco spd) :=
    fun _ => dmCode_fits _ _ (Nat.le_of_ble_eq_true rfl)
theorem CodeFits.locoFuncG1 (dev : DevAddr) (loco : LocoAddr) (fb : BitVec 5) : CodeFits.Statement (.locoFuncG1 dev loco fb) :=
    fun _ => dmCode_fits _ _ (Nat.le_of_ble_eq_true rfl)
theorem CodeFits.locoFuncG2 (dev : DevAddr) (loco : LocoAddr) (fb : BitVec 4) : CodeFits.Statement (.locoFuncG2 dev loco fb) :=
    fun _ => dmCode_fits _ _ (Nat.le_of_ble_eq_true rfl)
theorem CodeFits.locoFuncG3 (dev : DevAddr) (loco : LocoAddr) (fb : BitVec 4) : CodeFits.Statement (.locoFuncG3 dev loco fb) :=
    fun _ => dmCode_fits _ _ (Nat.le_of_ble_eq_true rfl)
theorem CodeFits.locoFuncG4 (dev : DevAddr) (loco : LocoAddr) (fb : Byte) : CodeFits.Statement (.locoFuncG4 dev loco fb) :=
    fun _ => dmCode_fits _ _ (Nat.le_of_ble_eq_true rfl)
theorem CodeFits.locoFuncG5 (dev : DevAddr) (loco : LocoAddr) (fb : Byte) : CodeFits.Statement (.locoFuncG5 dev loco fb) :=
    fun _ => dmCode_fits _ _ (Nat.le_of_ble_eq_true rfl)
theorem CodeFits.pomByte (dev : DevAddr) (loco : LocoAddr) (cv : BitVec 10) (val : Byte) : CodeFits.Statement (.pomByte dev loco cv val) :=
    fun _ => dmCode_fits _ _ (Nat.le_of_ble_eq_true rfl)
theorem CodeFits.pomBit (dev : DevAddr) (loco : LocoAddr) (cv : BitVec 10) (bitPos : BitVec 3) (bitVal : Bool) : CodeFits.Statement (.pomBit dev loco cv bitPos bitVal) :=
    fun _ => dmCode_fits _ _ (Nat.le_of_ble_eq_true rfl)
theorem CodeFits.dmUnknown (dev : DevAddr) (hdr : Byte) (data : List Byte) : CodeFits.Statement (.dmUnknown dev hdr data) :=
    fun h => dmCode_fits _ _ (by simp only [Instr.WellFormed, Bool.and_eq_true, decide_eq_true_eq] at h; exact h.1.2)
theorem CodeFits.turnoutFb (dev : DevAddr) (d0 : Byte) (d1 : Byte) : CodeFits.Statement (.turnoutFb dev d0 d1) :=
    fun _ => mdCode_fits _ _ (Nat.le_of_ble_eq_true rfl)
theorem CodeFits.turnoutCmdM (dev : DevAddr) (t : BitVec 10) (pos : Bool) (act : Bool) : CodeFits.Statement (.turnoutCmdM dev t pos act) :=
    fun _ => mdCode_fits _ _ (Nat.le_of_ble_eq_true rfl)
theorem CodeFits.bcPwrOff (dev : DevAddr) : CodeFits.Statement (.bcPwrOff dev) :=
    fun _ => mdCode_fits _ _ (Nat.le_of_ble_eq_true rfl)
theorem CodeFits.bcPwrOn (dev : DevAddr) : CodeFits.Statement (.bcPwrOn dev) :=
    fun _ => mdCode_fits _ _ (Nat.le_of_ble_eq_true rfl)
theorem CodeFits.bcService (dev : DevAddr) : CodeFits.Statement (.bcService dev) :=
    fun _ => mdCode_fits _ _ (Nat.le_of_ble_eq_true rfl)
theorem CodeFits.cvResult (dev : DevAddr) (cv : Byte) (val : Byte) : CodeFits.Statement (.cvResult dev cv val) :=
    fun _ => mdCode_fits _ _ (Nat.le_of_ble_eq_true rfl)
theorem CodeFits.bcEstop (dev : DevAddr) : CodeFits.Statement (.bcEstop dev) :=
    fun _ => mdCode_fits _ _ (Nat.le_of_ble_eq_true rfl)
theorem CodeFits.locoDrive14M (dev : DevAddr) (loco : LocoAddr) (spd : Byte) : CodeFits.Statement (.locoDrive14M dev loco spd) :=
    fun _ => mdCode_fits _ _ (Nat.le_of_ble_eq_true rfl)
theorem CodeFits.locoDrive27M (dev : DevAddr) (loco : LocoAddr) (spd : Byte) : CodeFits.Statement (.locoDrive27M dev loco spd) :=
    fun _ => mdCode_fits _ _ (Nat.le_of_ble_eq_true rfl)
theorem CodeFits.locoDrive28M (dev : DevAddr) (loco : LocoAddr) (spd : Byte) : CodeFits.Statement (.locoDrive28M dev loco spd) :=
    fun _ => mdCode_fits _ _ (Nat.le_of_ble_eq_true rfl)
theorem CodeFits.locoDrive128M (dev : DevAddr) (loco : LocoAddr) (spd : Byte) : CodeFits.Statement (.locoDrive128M dev loco spd) :=
    fun _ => mdCode_fits _ _ (Nat.le_of_ble_eq_true rfl)
theorem CodeFits.locoFuncG1M (dev : DevAddr) (loco : LocoAddr) (fb : BitVec 5) : CodeFits.Statement (.locoFuncG1M dev loco fb) :=
    fun _ => mdCode_fits _ _ (Nat.le_of_ble_eq_true rfl)
theorem CodeFits.locoFuncG2M (dev : DevAddr) (loco : LocoAddr) (fb : BitVec 4) : CodeFits.Statement (.locoFuncG2M dev loco fb) :=
    fun _ => mdCode_fits _ _ (Nat.le_of_ble_eq_true rfl)
theorem CodeFits.locoFuncG3M (dev : DevAddr) (loco : LocoAddr) (fb : BitVec 4) : CodeFits.Statement (.locoFuncG3M dev loco fb) :=
    fun _ => mdCode_fits _ _ (Nat.le_of_ble_eq_true rfl)
theorem CodeFits.locoFuncG4M (dev : DevAddr) (loco : LocoAddr) (fb : Byte) : CodeFits.Statement (.locoFuncG4M dev loco fb) :=
    fun _ => mdCode_fits _ _ (Nat.le_of_ble_eq_true rfl)
theorem CodeFits.locoFuncG5M (dev : DevAddr) (loco : LocoAddr) (fb : Byte) : CodeFits.Statement (.locoFuncG5M dev loco fb) :=
    fun _ => mdCode_fits _ _ (Nat.le_of_ble_eq_true rfl)
theorem CodeFits.mdIgnored (dev : DevAddr) (hdr : Byte) (data : List Byte) : CodeFits.Statement (.mdIgnored dev hdr data) :=
    fun h => mdCode_fits _ _ (by simp only [Instr.WellFormed, Bool.and_eq_true, decide_eq_true_eq] at h; exact h.1.2)
theorem CodeFits.setup (arg0 : BitVec 16) (arg1 : BitVec 8) (arg2 : BitVec 18) : CodeFits.Statement (.setup arg0 arg1 arg2) :=
    fun _ _ hc => by cases hc; rfl
theorem CodeFits.poll : CodeFits.Statement (.poll) := fun _ _ hc => by cases hc; rfl
theorem CodeFits.setPower (arg0 : BitVec 16) : CodeFits.Statement (.setPower arg0) := fun _ _ hc => by cases hc; rfl
theorem CodeFits.getPower : CodeFits.Statement (.getPower) := fun _ _ hc => by cases hc; rfl
theorem CodeFits.getRole : CodeFits.Statement (.getRole) := fun _ _ hc => by cases hc; rfl
theorem CodeFits.locoClaim (arg0 : BitVec 16) : CodeFits.Statement (.locoClaim arg0) := fun _ _ hc => by cases hc; rfl
theorem CodeFits.locoBusyNote (arg0 : BitVec 16) : CodeFits.Statement (.locoBusyNote arg0) :=
    fun _ _ hc => by cases hc; rfl
theorem CodeFits.pushDrive (arg0 : BitVec 16) (arg1 : BitVec 8) (arg2 : BitVec 18) : CodeFits.Statement (.pushDrive arg0 arg1 arg2) :=
    fun _ _ hc => by cases hc; rfl
theorem CodeFits.pushFunc (arg0 : BitVec 16) (arg1 : BitVec 8) (arg2 : BitVec 18) : CodeFits.Statement (.pushFunc arg0 arg1 arg2) :=
    fun _ _ hc => by cases hc; rfl
theorem CodeFits.getLocoInfo (arg0 : BitVec 16) : CodeFits.Statement (.getLocoInfo arg0) :=
    fun _ _ hc => by cases hc; rfl
theorem CodeFits.getLocoFunc (arg0 : BitVec 16) : CodeFits.Statement (.getLocoFunc arg0) :=
    fun _ _ hc => by cases hc; rfl
theorem CodeFits.pushTurnoutStatus (arg0 : BitVec 16) : CodeFits.Statement (.pushTurnoutStatus arg0) :=
    fun _ _ hc => by cases hc; rfl
theorem CodeFits.pushTurnoutCmd (arg0 : BitVec 16) (arg1 : BitVec 8) : CodeFits.Statement (.pushTurnoutCmd arg0 arg1) :=
    fun _ _ hc => by cases hc; rfl
theorem CodeFits.setCvReadValue (arg0 : BitVec 16) (arg1 : BitVec 8) : CodeFits.Statement (.setCvReadValue arg0 arg1) :=
    fun _ _ hc => by cases hc; rfl
theorem CodeFits.setCvNack : CodeFits.Statement (.setCvNack) := fun _ _ hc => by cases hc; rfl
theorem CodeFits.setCvNackSc : CodeFits.Statement (.setCvNackSc) := fun _ _ hc => by cases hc; rfl
theorem CodeFits.pushFeedback (arg0 : BitVec 16) : CodeFits.Statement (.pushFeedback arg0) :=
    fun _ _ hc => by cases hc; rfl
theorem CodeFits.releaseSlot (arg0 : BitVec 16) : CodeFits.Statement (.releaseSlot arg0) :=
    fun _ _ hc => by cases hc; rfl
theorem CodeFits.pendTimeout (arg0 : BitVec 16) : CodeFits.Statement (.pendTimeout arg0) :=
    fun _ _ hc => by cases hc; rfl
theorem CodeFits.hostReserved (op : BitVec 5) : CodeFits.Statement (.hostReserved op) := fun _ _ hc => by cases hc; rfl
theorem CodeFits.rxi (mark : Bool) (b : Byte) : CodeFits.Statement (.rxi mark b) :=
    fun h _ hc => by cases hc; cases mark <;> simp_all [Instr.WellFormed, codeFits]
theorem CodeFits.txi : CodeFits.Statement (.txi) := fun _ _ hc => by cases hc; rfl
theorem CodeFits.computeChecksum (hdr : Byte) (data : List Byte) : CodeFits.Statement (.computeChecksum hdr data) :=
    fun _ _ hc => by cases hc
theorem CodeFits.verify (m : Message) : CodeFits.Statement (.verify m) := fun _ _ hc => by cases hc
theorem CodeFits.callByteParity (raw : Byte) : CodeFits.Statement (.callByteParity raw) := fun _ _ hc => by cases hc
theorem CodeFits.encodeFrame (hdr : Byte) (data : List Byte) : CodeFits.Statement (.encodeFrame hdr data) :=
    fun _ _ hc => by cases hc
theorem CodeFits.beginWrite (q : RingId) : CodeFits.Statement (.beginWrite q) := fun _ _ hc => by cases hc
theorem CodeFits.appendByte (q : RingId) (b : Byte) : CodeFits.Statement (.appendByte q b) := fun _ _ hc => by cases hc
theorem CodeFits.commit (q : RingId) : CodeFits.Statement (.commit q) := fun _ _ hc => by cases hc
theorem CodeFits.abortWrite (q : RingId) : CodeFits.Statement (.abortWrite q) := fun _ _ hc => by cases hc
theorem CodeFits.tryRead (q : RingId) : CodeFits.Statement (.tryRead q) := fun _ _ hc => by cases hc
theorem CodeFits.isEmpty (q : RingId) : CodeFits.Statement (.isEmpty q) := fun _ _ hc => by cases hc
theorem CodeFits.isFull (q : RingId) : CodeFits.Statement (.isFull q) := fun _ _ hc => by cases hc
theorem CodeFits.enqueue (m : Message) : CodeFits.Statement (.enqueue m) := fun _ _ hc => by cases hc
theorem CodeFits.requestBusy (s : Fin 31) (loco : LocoAddr) : CodeFits.Statement (.requestBusy s loco) :=
    fun _ _ hc => by cases hc
theorem CodeFits.markBusy (s : Fin 31) (loco : LocoAddr) : CodeFits.Statement (.markBusy s loco) :=
    fun _ _ hc => by cases hc
theorem CodeFits.release (s : Fin 31) : CodeFits.Statement (.release s) := fun _ _ hc => by cases hc
theorem CodeFits.holder (loco : LocoAddr) : CodeFits.Statement (.holder loco) := fun _ _ hc => by cases hc

end Sys2Proof.Laws
end

