-- ==== Sys2Proof/Laws/Rings.lean ====
section
/-! SUPPORT. What each ring operation does, said once, and the canonical form of a ring's store: every operation keeps
it, and the reset state has it. -/

namespace Sys2Proof.Machine

/-! ### Ring indices (10_state.md R36, R47) -/

theorem idxNext_lt {cap : Nat} (hc : 1 ≤ cap) (p : Nat) : idxNext cap p < 2 * cap :=
  Nat.mod_lt _ (by omega)

theorem idxNext_eq {cap p : Nat} (hp : p < 2 * cap) :
    idxNext cap p = if p + 1 = 2 * cap then 0 else p + 1 := by
  unfold idxNext
  split
  · rename_i h; rw [h, Nat.mod_self]
  · exact Nat.mod_eq_of_lt (by omega)

theorem idxDist_eq {cap a b : Nat} (ha : a < 2 * cap) (hb : b < 2 * cap) :
    idxDist cap a b = if a ≤ b then b - a else b + 2 * cap - a := by
  unfold idxDist
  split
  · rw [show b + 2 * cap - a = (b - a) + 2 * cap by omega, Nat.add_mod_right, Nat.mod_eq_of_lt (by omega)]
  · exact Nat.mod_eq_of_lt (by omega)

theorem idxDist_lt {cap a b : Nat} (ha : a < 2 * cap) (hb : b < 2 * cap) : idxDist cap a b < 2 * cap := by
  rw [idxDist_eq ha hb]; split <;> omega

@[simp] theorem idxDist_self {cap a : Nat} (ha : a < 2 * cap) : idxDist cap a a = 0 := by
  rw [idxDist_eq ha ha]; simp

theorem idxDist_eq_zero {cap a b : Nat} (ha : a < 2 * cap) (hb : b < 2 * cap) : idxDist cap a b = 0 ↔ a = b := by
  rw [idxDist_eq ha hb]; split <;> omega

/-- Advancing the further index moves it one further away. -/
theorem idxDist_next_right {cap a b : Nat} (ha : a < 2 * cap) (hb : b < 2 * cap) (h : idxDist cap a b + 1 < 2 * cap) :
    idxDist cap a (idxNext cap b) = idxDist cap a b + 1 := by
  have hc : 1 ≤ cap := by omega
  rw [idxDist_eq ha hb] at h
  rw [idxDist_eq ha (idxNext_lt hc b), idxDist_eq ha hb, idxNext_eq hb]
  split at h <;> (repeat' split) <;> omega

/-- Advancing the nearer index brings it one nearer. -/
theorem idxDist_next_left {cap a b : Nat} (ha : a < 2 * cap) (hb : b < 2 * cap) (h : a ≠ b) :
    idxDist cap (idxNext cap a) b + 1 = idxDist cap a b := by
  have hc : 1 ≤ cap := by omega
  rw [idxDist_eq (idxNext_lt hc a) hb, idxDist_eq ha hb, idxNext_eq ha]
  (repeat' split) <;> omega

/-! ### The operations, one lemma each (41_ring_buffers.md R160 to R168) -/

/-- `beginWrite` answers a ring exactly when the ring is not full, and then only the cursor moves. -/
theorem Ring.beginWrite_some {cap : Nat} {r r' : Ring} :
    r.beginWrite cap = some r' ↔ r.isFull cap = false ∧ r' = { r with curOpen := true, curPos := 0 } := by
  unfold Ring.beginWrite
  cases r.isFull cap <;> simp [eq_comm]

theorem Ring.beginWrite_none {cap : Nat} {r : Ring} : r.beginWrite cap = none ↔ r.isFull cap = true := by
  unfold Ring.beginWrite
  cases r.isFull cap <;> simp

/-- `appendByte` with the cursor open and room: one byte of one slot is stored, the cursor moves by one. -/
theorem Ring.appendByte_open {cap : Nat} {r : Ring} {b : Byte} (ho : r.curOpen = true) (hp : r.curPos < 10) :
    r.appendByte cap b =
      { r with mem := r.mem.modify (r.wr % cap) (fun m => { m with bytes := m.bytes.set r.curPos b }),
               curPos := r.curPos + 1 } := by
  simp [Ring.appendByte, ho, Config.msgMax, hp]

/-- `appendByte` outside its contract is ignored. -/
theorem Ring.appendByte_ignored {cap : Nat} {r : Ring} {b : Byte} (h : r.curOpen = false ∨ 10 ≤ r.curPos) :
    r.appendByte cap b = r := by
  unfold Ring.appendByte Config.msgMax
  rcases h with h | h
  · simp [h]
  · rw [if_neg (by omega)]

/-- `commit` with the cursor open: the length is stored, the write index advances, the cursor closes. -/
theorem Ring.commit_open {cap lag : Nat} {r : Ring} (ho : r.curOpen = true) :
    r.commit cap lag =
      { r with mem := r.mem.modify (r.wr % cap) (fun m => { m with len := r.curPos }),
               wr := idxNext cap r.wr, wrSeen := if lag = 0 then idxNext cap r.wr else r.wrSeen,
               curOpen := false, curPos := 0 } := by
  simp [Ring.commit, ho]

/-- `commit` with no cursor open is ignored. -/
theorem Ring.commit_ignored {cap lag : Nat} {r : Ring} (ho : r.curOpen = false) : r.commit cap lag = r := by
  simp [Ring.commit, ho]

/-- `tryRead` answers a Message exactly when the consumer sees the ring not empty, and then only the read index moves. -/
theorem Ring.tryRead_some {cap lag : Nat} {r r' : Ring} {m : Message} :
    r.tryRead cap lag = some (m, r') ↔
      r.isEmpty = false ∧ m = (r.slotAt cap r.rd).message ∧
        r' = { r with rd := idxNext cap r.rd, rdSeen := if lag = 0 then idxNext cap r.rd else r.rdSeen } := by
  unfold Ring.tryRead
  cases r.isEmpty <;> simp [eq_comm]

theorem Ring.tryRead_none {cap lag : Nat} {r : Ring} : r.tryRead cap lag = none ↔ r.isEmpty = true := by
  unfold Ring.tryRead
  cases r.isEmpty <;> simp

/-- The bytes of a Message appended one after the other. -/
def Ring.appendAll (cap : Nat) (r : Ring) (m : Message) : Ring := m.foldl (fun r b => r.appendByte cap b) r

@[simp] theorem Ring.appendAll_nil (cap : Nat) (r : Ring) : r.appendAll cap [] = r := rfl

@[simp] theorem Ring.appendAll_cons (cap : Nat) (r : Ring) (b : Byte) (m : Message) :
    r.appendAll cap (b :: m) = (r.appendByte cap b).appendAll cap m := rfl

/-- `enqueue` answers a ring exactly when the ring is not full: the Message is appended from position 0 and committed. -/
theorem Ring.enqueue_some {cap lag : Nat} {r r' : Ring} {m : Message} :
    r.enqueue cap lag m = some r' ↔
      r.isFull cap = false ∧
        r' = (Ring.appendAll cap { r with curOpen := true, curPos := 0 } m).commit cap lag := by
  unfold Ring.enqueue Ring.beginWrite Ring.appendAll
  cases r.isFull cap <;> simp [eq_comm]

theorem Ring.enqueue_none {cap lag : Nat} {r : Ring} {m : Message} :
    r.enqueue cap lag m = none ↔ r.isFull cap = true := by
  unfold Ring.enqueue Ring.beginWrite
  cases r.isFull cap <;> simp

/-! ### What a slot holds after a store -/

/-- A slot depends on the store alone. -/
theorem Ring.slotAt_congr {cap p : Nat} {r r' : Ring} (h : r'.mem = r.mem) : r'.slotAt cap p = r.slotAt cap p := by
  simp [Ring.slotAt, h]

/-- A store to the slot of an index shows in that slot. -/
theorem Ring.slotAt_modify {cap p q : Nat} {r r' : Ring} {f : MsgSlot → MsgSlot}
    (h : r'.mem = r.mem.modify (q % cap) f) (hp : p % cap = q % cap) (hq : q % cap < r.mem.length) :
    r'.slotAt cap p = f (r.slotAt cap q) := by
  simp [Ring.slotAt, h, hp, List.getD_eq_getElem?_getD, hq]

/-- A store to the slot of an index shows in no other slot. -/
theorem Ring.slotAt_modify_ne {cap p q : Nat} {r r' : Ring} {f : MsgSlot → MsgSlot}
    (h : r'.mem = r.mem.modify (q % cap) f) (hp : p % cap ≠ q % cap) : r'.slotAt cap p = r.slotAt cap p := by
  simp [Ring.slotAt, h, List.getD_eq_getElem?_getD, Ne.symm hp]

/-! ### The store keeps its canonical form (20_memory.md R71) -/

theorem MsgSlot.zero_ok : MsgSlot.zero.bytes.length = 10 ∧ MsgSlot.zero.len ≤ 10 := by decide

theorem Ring.shapeOk_empty (cap : Nat) : (Ring.empty cap).shapeOk cap := by
  refine ⟨by simp [Ring.empty], fun m hm => ?_⟩
  rw [(List.mem_replicate.1 hm).2]
  exact MsgSlot.zero_ok

/-- A store that keeps every slot's shape keeps the ring's. -/
theorem Ring.shapeOk_modify {cap i : Nat} {mem : List MsgSlot} {f : MsgSlot → MsgSlot}
    (h : mem.length = cap ∧ ∀ m ∈ mem, m.bytes.length = 10 ∧ m.len ≤ 10)
    (hf : ∀ m, m.bytes.length = 10 ∧ m.len ≤ 10 → (f m).bytes.length = 10 ∧ (f m).len ≤ 10) :
    (mem.modify i f).length = cap ∧ ∀ m ∈ mem.modify i f, m.bytes.length = 10 ∧ m.len ≤ 10 := by
  refine ⟨by simpa using h.1, fun m hm => ?_⟩
  obtain ⟨j, hj, rfl⟩ := List.mem_iff_getElem.1 hm
  rw [List.getElem_modify]
  have := h.2 _ (List.getElem_mem (by simpa using hj : j < mem.length))
  split
  · exact hf _ this
  · exact this

theorem Ring.beginWrite_keeps_shape {cap : Nat} {r r' : Ring} (h : r.shapeOk cap) (hr : r.beginWrite cap = some r') :
    r'.shapeOk cap := by
  obtain ⟨-, rfl⟩ := Ring.beginWrite_some.1 hr; exact h

theorem Ring.appendByte_keeps_shape {cap : Nat} {r : Ring} (h : r.shapeOk cap) (b : Byte) :
    (r.appendByte cap b).shapeOk cap := by
  unfold Ring.appendByte
  split
  · exact Ring.shapeOk_modify h fun m hm => by simpa using hm
  · exact h

theorem Ring.appendByte_keeps_pos {cap : Nat} {r : Ring} (h : r.curPos ≤ 10) (b : Byte) :
    (r.appendByte cap b).curPos ≤ 10 := by
  unfold Ring.appendByte Config.msgMax
  split
  · simp only; omega
  · exact h

theorem Ring.commit_keeps_shape {cap lag : Nat} {r : Ring} (h : r.shapeOk cap) (hp : r.curPos ≤ 10) :
    (r.commit cap lag).shapeOk cap := by
  unfold Ring.commit
  split
  · exact Ring.shapeOk_modify h fun m hm => ⟨hm.1, hp⟩
  · exact h

theorem Ring.abortWrite_keeps_shape {cap : Nat} {r : Ring} (h : r.shapeOk cap) : r.abortWrite.shapeOk cap := h

theorem Ring.tryRead_keeps_shape {cap lag : Nat} {r r' : Ring} {m : Message} (h : r.shapeOk cap)
    (hr : r.tryRead cap lag = some (m, r')) : r'.shapeOk cap := by
  obtain ⟨-, -, rfl⟩ := Ring.tryRead_some.1 hr; exact h

theorem Ring.appendAll_keeps_shape {cap : Nat} {r : Ring} (m : Message) (h : r.shapeOk cap) (hp : r.curPos ≤ 10) :
    (r.appendAll cap m).shapeOk cap ∧ (r.appendAll cap m).curPos ≤ 10 := by
  induction m generalizing r with
  | nil => exact ⟨h, hp⟩
  | cons b m ih => exact ih (Ring.appendByte_keeps_shape h b) (Ring.appendByte_keeps_pos hp b)

theorem Ring.enqueue_keeps_shape {cap lag : Nat} {r r' : Ring} {m : Message} (h : r.shapeOk cap)
    (hr : r.enqueue cap lag m = some r') : r'.shapeOk cap := by
  obtain ⟨-, rfl⟩ := Ring.enqueue_some.1 hr
  have := Ring.appendAll_keeps_shape m (r := { r with curOpen := true, curPos := 0 }) h (Nat.zero_le _)
  exact Ring.commit_keeps_shape this.1 this.2

theorem Ring.syncWr_keeps_shape {cap lag draw : Nat} {r : Ring} (h : r.shapeOk cap) :
    (r.syncWr cap lag draw).shapeOk cap := h

theorem Ring.syncRd_keeps_shape {cap lag draw : Nat} {r : Ring} (h : r.shapeOk cap) :
    (r.syncRd cap lag draw).shapeOk cap := h

/-- The reset state's rings have the canonical form. -/
theorem State.reset_shapeOk :
    State.reset.rxRing.shapeOk State.reset.params.cap ∧ State.reset.txRing.shapeOk State.reset.params.cap :=
  ⟨Ring.shapeOk_empty _, Ring.shapeOk_empty _⟩

/-! ### The rings of the state (41_ring_buffers.md R164, R168; 43_dispatcher.md R234) -/

/-- `enqueue(TX, m)` either answers the state with the TX ring replaced, or finds the ring full. -/
theorem State.enqueueTx_cases (s : State) (m : Message) :
    (s.txFull = true ∧ s.enqueueTx m = none) ∨
    (s.txFull = false ∧ ∃ r, s.txRing.enqueue s.params.cap s.params.syncLag m = some r ∧
      s.enqueueTx m = some { s with txRing := r }) := by
  unfold State.enqueueTx State.txFull
  cases h : s.txRing.isFull s.params.cap with
  | true => left; simp [Ring.enqueue_none.2 h]
  | false =>
    right
    refine ⟨rfl, _, Ring.enqueue_some.2 ⟨h, rfl⟩, ?_⟩
    simp [Ring.enqueue_some.2 ⟨h, rfl⟩, State.setRing]

/-- `tryRead(TX)` either answers the oldest Message, or finds the ring empty. -/
theorem State.readTx_cases (s : State) :
    (s.txEmpty = true ∧ s.readTx = none) ∨
    (s.txEmpty = false ∧ ∃ m r, s.txRing.tryRead s.params.cap s.params.syncLag = some (m, r) ∧
      s.readTx = some (m, { s with txRing := r })) := by
  unfold State.readTx State.txEmpty
  cases h : s.txRing.isEmpty with
  | true => left; simp [Ring.tryRead_none.2 h]
  | false =>
    right
    refine ⟨rfl, _, _, Ring.tryRead_some.2 ⟨h, rfl, rfl⟩, ?_⟩
    simp [Ring.tryRead_some.2 ⟨h, rfl, rfl⟩, State.setRing]

/-- `tryRead(RX)` either answers the oldest Message, or finds the ring empty. -/
theorem State.readRx_cases (s : State) :
    (s.rxEmpty = true ∧ s.readRx = none) ∨
    (s.rxEmpty = false ∧ ∃ m r, s.rxRing.tryRead s.params.cap s.params.syncLag = some (m, r) ∧
      s.readRx = some (m, { s with rxRing := r })) := by
  unfold State.readRx State.rxEmpty
  cases h : s.rxRing.isEmpty with
  | true => left; simp [Ring.tryRead_none.2 h]
  | false =>
    right
    refine ⟨rfl, _, _, Ring.tryRead_some.2 ⟨h, rfl, rfl⟩, ?_⟩
    simp [Ring.tryRead_some.2 ⟨h, rfl, rfl⟩, State.setRing]

/-- `reply` either queues the Message or raises `E_TX_FULL`. -/
theorem State.reply_cases (s : State) (cb : Byte) (frame : List Byte) :
    (s.txFull = true ∧ s.reply cb frame = s.raise .txFull) ∨
    (s.txFull = false ∧ ∃ r, s.txRing.enqueue s.params.cap s.params.syncLag (cb :: frame) = some r ∧
      s.reply cb frame = { s with txRing := r }) := by
  unfold State.reply
  rcases s.enqueueTx_cases (cb :: frame) with ⟨h, h'⟩ | ⟨h, r, hr, h'⟩
  · left; simp [h, h']
  · right; exact ⟨h, r, hr, by simp [h']⟩

/-- A host command's push either queues the Message and writes what `k` writes, or is rejected with `E_TX_FULL`. -/
theorem State.pushFrame_cases (s : State) (frame : List Byte) (v : Byte) (k : State → State) :
    (s.txFull = true ∧ s.pushFrame frame v k = s.rejected .eTxFull 0 .txFull) ∨
    (s.txFull = false ∧ ∃ r, s.txRing.enqueue s.params.cap s.params.syncLag (s.hostCb :: frame) = some r ∧
      s.pushFrame frame v k = (k { s with txRing := r }).respond .ok v) := by
  unfold State.pushFrame
  rcases s.enqueueTx_cases (s.hostCb :: frame) with ⟨h, h'⟩ | ⟨h, r, hr, h'⟩
  · left; simp only [h', h, true_and]; rfl
  · right; exact ⟨h, r, hr, by simp [h']⟩

end Sys2Proof.Machine
end

