-- ==== Sys2Proof/Laws/State.lean ====
section
/-! SUPPORT. What each named update of the state leaves alone and what it writes, one lemma per field per update. -/

namespace Sys2Proof.Machine

/-! ### `raise` -/

@[simp] theorem State.raise_params (s : State) (e : ErrCond) : (s.raise e).params = s.params := rfl
@[simp] theorem State.raise_setupDone (s : State) (e : ErrCond) : (s.raise e).setupDone = s.setupDone := rfl
@[simp] theorem State.raise_myAddr (s : State) (e : ErrCond) : (s.raise e).myAddr = s.myAddr := rfl
@[simp] theorem State.raise_auto (s : State) (e : ErrCond) : (s.raise e).auto = s.auto := rfl
@[simp] theorem State.raise_stepsDef (s : State) (e : ErrCond) : (s.raise e).stepsDef = s.stepsDef := rfl
@[simp] theorem State.raise_notifyEn (s : State) (e : ErrCond) : (s.raise e).notifyEn = s.notifyEn := rfl
@[simp] theorem State.raise_role (s : State) (e : ErrCond) : (s.raise e).role = s.role := rfl
@[simp] theorem State.raise_pollAddr (s : State) (e : ErrCond) : (s.raise e).pollAddr = s.pollAddr := rfl
@[simp] theorem State.raise_callByte (s : State) (e : ErrCond) : (s.raise e).callByte = s.callByte := rfl
@[simp] theorem State.raise_missCnt (s : State) (e : ErrCond) : (s.raise e).missCnt = s.missCnt := rfl
@[simp] theorem State.raise_winOpen (s : State) (e : ErrCond) : (s.raise e).winOpen = s.winOpen := rfl
@[simp] theorem State.raise_winT0 (s : State) (e : ErrCond) : (s.raise e).winT0 = s.winT0 := rfl
@[simp] theorem State.raise_oppSeq (s : State) (e : ErrCond) : (s.raise e).oppSeq = s.oppSeq := rfl
@[simp] theorem State.raise_cbSeen (s : State) (e : ErrCond) : (s.raise e).cbSeen = s.cbSeen := rfl
@[simp] theorem State.raise_rxaSt (s : State) (e : ErrCond) : (s.raise e).rxaSt = s.rxaSt := rfl
@[simp] theorem State.raise_rxaRem (s : State) (e : ErrCond) : (s.raise e).rxaRem = s.rxaRem := rfl
@[simp] theorem State.raise_rxaCb (s : State) (e : ErrCond) : (s.raise e).rxaCb = s.rxaCb := rfl
@[simp] theorem State.raise_rxRing (s : State) (e : ErrCond) : (s.raise e).rxRing = s.rxRing := rfl
@[simp] theorem State.raise_txRing (s : State) (e : ErrCond) : (s.raise e).txRing = s.txRing := rfl
@[simp] theorem State.raise_txActive (s : State) (e : ErrCond) : (s.raise e).txActive = s.txActive := rfl
@[simp] theorem State.raise_txBuf (s : State) (e : ErrCond) : (s.raise e).txBuf = s.txBuf := rfl
@[simp] theorem State.raise_txLen (s : State) (e : ErrCond) : (s.raise e).txLen = s.txLen := rfl
@[simp] theorem State.raise_txIdx (s : State) (e : ErrCond) : (s.raise e).txIdx = s.txIdx := rfl
@[simp] theorem State.raise_txMark0 (s : State) (e : ErrCond) : (s.raise e).txMark0 = s.txMark0 := rfl
@[simp] theorem State.raise_txOpensWin (s : State) (e : ErrCond) : (s.raise e).txOpensWin = s.txOpensWin := rfl
@[simp] theorem State.raise_slots (s : State) (e : ErrCond) : (s.raise e).slots = s.slots := rfl
@[simp] theorem State.raise_pendInfo (s : State) (e : ErrCond) : (s.raise e).pendInfo = s.pendInfo := rfl
@[simp] theorem State.raise_pendInfoAddr (s : State) (e : ErrCond) : (s.raise e).pendInfoAddr = s.pendInfoAddr := rfl
@[simp] theorem State.raise_pendInfoSeq (s : State) (e : ErrCond) : (s.raise e).pendInfoSeq = s.pendInfoSeq := rfl
@[simp] theorem State.raise_pendFunc (s : State) (e : ErrCond) : (s.raise e).pendFunc = s.pendFunc := rfl
@[simp] theorem State.raise_pendFuncAddr (s : State) (e : ErrCond) : (s.raise e).pendFuncAddr = s.pendFuncAddr := rfl
@[simp] theorem State.raise_pendFuncSeq (s : State) (e : ErrCond) : (s.raise e).pendFuncSeq = s.pendFuncSeq := rfl
@[simp] theorem State.raise_power (s : State) (e : ErrCond) : (s.raise e).power = s.power := rfl
@[simp] theorem State.raise_lastCvValid (s : State) (e : ErrCond) : (s.raise e).lastCvValid = s.lastCvValid := rfl
@[simp] theorem State.raise_lastCvIdx (s : State) (e : ErrCond) : (s.raise e).lastCvIdx = s.lastCvIdx := rfl
@[simp] theorem State.raise_lastCvVal (s : State) (e : ErrCond) : (s.raise e).lastCvVal = s.lastCvVal := rfl
@[simp] theorem State.raise_now (s : State) (e : ErrCond) : (s.raise e).now = s.now := rfl
@[simp] theorem State.raise_inputs (s : State) (e : ErrCond) : (s.raise e).inputs = s.inputs := rfl
@[simp] theorem State.raise_out (s : State) (e : ErrCond) : (s.raise e).out = { s.out with raised := s.out.raised ++ [e] } := rfl
@[simp] theorem State.raise_lagDraws (s : State) (e : ErrCond) : (s.raise e).lagDraws = s.lagDraws := rfl

/-! ### `respond` -/

@[simp] theorem State.respond_params (s : State) (st : Status) (v : Byte) : (s.respond st v).params = s.params := rfl
@[simp] theorem State.respond_setupDone (s : State) (st : Status) (v : Byte) : (s.respond st v).setupDone = s.setupDone := rfl
@[simp] theorem State.respond_myAddr (s : State) (st : Status) (v : Byte) : (s.respond st v).myAddr = s.myAddr := rfl
@[simp] theorem State.respond_auto (s : State) (st : Status) (v : Byte) : (s.respond st v).auto = s.auto := rfl
@[simp] theorem State.respond_stepsDef (s : State) (st : Status) (v : Byte) : (s.respond st v).stepsDef = s.stepsDef := rfl
@[simp] theorem State.respond_notifyEn (s : State) (st : Status) (v : Byte) : (s.respond st v).notifyEn = s.notifyEn := rfl
@[simp] theorem State.respond_role (s : State) (st : Status) (v : Byte) : (s.respond st v).role = s.role := rfl
@[simp] theorem State.respond_pollAddr (s : State) (st : Status) (v : Byte) : (s.respond st v).pollAddr = s.pollAddr := rfl
@[simp] theorem State.respond_callByte (s : State) (st : Status) (v : Byte) : (s.respond st v).callByte = s.callByte := rfl
@[simp] theorem State.respond_missCnt (s : State) (st : Status) (v : Byte) : (s.respond st v).missCnt = s.missCnt := rfl
@[simp] theorem State.respond_winOpen (s : State) (st : Status) (v : Byte) : (s.respond st v).winOpen = s.winOpen := rfl
@[simp] theorem State.respond_winT0 (s : State) (st : Status) (v : Byte) : (s.respond st v).winT0 = s.winT0 := rfl
@[simp] theorem State.respond_oppSeq (s : State) (st : Status) (v : Byte) : (s.respond st v).oppSeq = s.oppSeq := rfl
@[simp] theorem State.respond_cbSeen (s : State) (st : Status) (v : Byte) : (s.respond st v).cbSeen = s.cbSeen := rfl
@[simp] theorem State.respond_rxaSt (s : State) (st : Status) (v : Byte) : (s.respond st v).rxaSt = s.rxaSt := rfl
@[simp] theorem State.respond_rxaRem (s : State) (st : Status) (v : Byte) : (s.respond st v).rxaRem = s.rxaRem := rfl
@[simp] theorem State.respond_rxaCb (s : State) (st : Status) (v : Byte) : (s.respond st v).rxaCb = s.rxaCb := rfl
@[simp] theorem State.respond_rxRing (s : State) (st : Status) (v : Byte) : (s.respond st v).rxRing = s.rxRing := rfl
@[simp] theorem State.respond_txRing (s : State) (st : Status) (v : Byte) : (s.respond st v).txRing = s.txRing := rfl
@[simp] theorem State.respond_txActive (s : State) (st : Status) (v : Byte) : (s.respond st v).txActive = s.txActive := rfl
@[simp] theorem State.respond_txBuf (s : State) (st : Status) (v : Byte) : (s.respond st v).txBuf = s.txBuf := rfl
@[simp] theorem State.respond_txLen (s : State) (st : Status) (v : Byte) : (s.respond st v).txLen = s.txLen := rfl
@[simp] theorem State.respond_txIdx (s : State) (st : Status) (v : Byte) : (s.respond st v).txIdx = s.txIdx := rfl
@[simp] theorem State.respond_txMark0 (s : State) (st : Status) (v : Byte) : (s.respond st v).txMark0 = s.txMark0 := rfl
@[simp] theorem State.respond_txOpensWin (s : State) (st : Status) (v : Byte) : (s.respond st v).txOpensWin = s.txOpensWin := rfl
@[simp] theorem State.respond_slots (s : State) (st : Status) (v : Byte) : (s.respond st v).slots = s.slots := rfl
@[simp] theorem State.respond_pendInfo (s : State) (st : Status) (v : Byte) : (s.respond st v).pendInfo = s.pendInfo := rfl
@[simp] theorem State.respond_pendInfoAddr (s : State) (st : Status) (v : Byte) : (s.respond st v).pendInfoAddr = s.pendInfoAddr := rfl
@[simp] theorem State.respond_pendInfoSeq (s : State) (st : Status) (v : Byte) : (s.respond st v).pendInfoSeq = s.pendInfoSeq := rfl
@[simp] theorem State.respond_pendFunc (s : State) (st : Status) (v : Byte) : (s.respond st v).pendFunc = s.pendFunc := rfl
@[simp] theorem State.respond_pendFuncAddr (s : State) (st : Status) (v : Byte) : (s.respond st v).pendFuncAddr = s.pendFuncAddr := rfl
@[simp] theorem State.respond_pendFuncSeq (s : State) (st : Status) (v : Byte) : (s.respond st v).pendFuncSeq = s.pendFuncSeq := rfl
@[simp] theorem State.respond_power (s : State) (st : Status) (v : Byte) : (s.respond st v).power = s.power := rfl
@[simp] theorem State.respond_lastCvValid (s : State) (st : Status) (v : Byte) : (s.respond st v).lastCvValid = s.lastCvValid := rfl
@[simp] theorem State.respond_lastCvIdx (s : State) (st : Status) (v : Byte) : (s.respond st v).lastCvIdx = s.lastCvIdx := rfl
@[simp] theorem State.respond_lastCvVal (s : State) (st : Status) (v : Byte) : (s.respond st v).lastCvVal = s.lastCvVal := rfl
@[simp] theorem State.respond_now (s : State) (st : Status) (v : Byte) : (s.respond st v).now = s.now := rfl
@[simp] theorem State.respond_inputs (s : State) (st : Status) (v : Byte) : (s.respond st v).inputs = s.inputs := rfl
@[simp] theorem State.respond_out (s : State) (st : Status) (v : Byte) : (s.respond st v).out = { s.out with cmd := some (st, v) } := rfl
@[simp] theorem State.respond_lagDraws (s : State) (st : Status) (v : Byte) : (s.respond st v).lagDraws = s.lagDraws := rfl

/-! ### `answer` -/

@[simp] theorem State.answer_params (s : State) (r : OpResult) : (s.answer r).params = s.params := rfl
@[simp] theorem State.answer_setupDone (s : State) (r : OpResult) : (s.answer r).setupDone = s.setupDone := rfl
@[simp] theorem State.answer_myAddr (s : State) (r : OpResult) : (s.answer r).myAddr = s.myAddr := rfl
@[simp] theorem State.answer_auto (s : State) (r : OpResult) : (s.answer r).auto = s.auto := rfl
@[simp] theorem State.answer_stepsDef (s : State) (r : OpResult) : (s.answer r).stepsDef = s.stepsDef := rfl
@[simp] theorem State.answer_notifyEn (s : State) (r : OpResult) : (s.answer r).notifyEn = s.notifyEn := rfl
@[simp] theorem State.answer_role (s : State) (r : OpResult) : (s.answer r).role = s.role := rfl
@[simp] theorem State.answer_pollAddr (s : State) (r : OpResult) : (s.answer r).pollAddr = s.pollAddr := rfl
@[simp] theorem State.answer_callByte (s : State) (r : OpResult) : (s.answer r).callByte = s.callByte := rfl
@[simp] theorem State.answer_missCnt (s : State) (r : OpResult) : (s.answer r).missCnt = s.missCnt := rfl
@[simp] theorem State.answer_winOpen (s : State) (r : OpResult) : (s.answer r).winOpen = s.winOpen := rfl
@[simp] theorem State.answer_winT0 (s : State) (r : OpResult) : (s.answer r).winT0 = s.winT0 := rfl
@[simp] theorem State.answer_oppSeq (s : State) (r : OpResult) : (s.answer r).oppSeq = s.oppSeq := rfl
@[simp] theorem State.answer_cbSeen (s : State) (r : OpResult) : (s.answer r).cbSeen = s.cbSeen := rfl
@[simp] theorem State.answer_rxaSt (s : State) (r : OpResult) : (s.answer r).rxaSt = s.rxaSt := rfl
@[simp] theorem State.answer_rxaRem (s : State) (r : OpResult) : (s.answer r).rxaRem = s.rxaRem := rfl
@[simp] theorem State.answer_rxaCb (s : State) (r : OpResult) : (s.answer r).rxaCb = s.rxaCb := rfl
@[simp] theorem State.answer_rxRing (s : State) (r : OpResult) : (s.answer r).rxRing = s.rxRing := rfl
@[simp] theorem State.answer_txRing (s : State) (r : OpResult) : (s.answer r).txRing = s.txRing := rfl
@[simp] theorem State.answer_txActive (s : State) (r : OpResult) : (s.answer r).txActive = s.txActive := rfl
@[simp] theorem State.answer_txBuf (s : State) (r : OpResult) : (s.answer r).txBuf = s.txBuf := rfl
@[simp] theorem State.answer_txLen (s : State) (r : OpResult) : (s.answer r).txLen = s.txLen := rfl
@[simp] theorem State.answer_txIdx (s : State) (r : OpResult) : (s.answer r).txIdx = s.txIdx := rfl
@[simp] theorem State.answer_txMark0 (s : State) (r : OpResult) : (s.answer r).txMark0 = s.txMark0 := rfl
@[simp] theorem State.answer_txOpensWin (s : State) (r : OpResult) : (s.answer r).txOpensWin = s.txOpensWin := rfl
@[simp] theorem State.answer_slots (s : State) (r : OpResult) : (s.answer r).slots = s.slots := rfl
@[simp] theorem State.answer_pendInfo (s : State) (r : OpResult) : (s.answer r).pendInfo = s.pendInfo := rfl
@[simp] theorem State.answer_pendInfoAddr (s : State) (r : OpResult) : (s.answer r).pendInfoAddr = s.pendInfoAddr := rfl
@[simp] theorem State.answer_pendInfoSeq (s : State) (r : OpResult) : (s.answer r).pendInfoSeq = s.pendInfoSeq := rfl
@[simp] theorem State.answer_pendFunc (s : State) (r : OpResult) : (s.answer r).pendFunc = s.pendFunc := rfl
@[simp] theorem State.answer_pendFuncAddr (s : State) (r : OpResult) : (s.answer r).pendFuncAddr = s.pendFuncAddr := rfl
@[simp] theorem State.answer_pendFuncSeq (s : State) (r : OpResult) : (s.answer r).pendFuncSeq = s.pendFuncSeq := rfl
@[simp] theorem State.answer_power (s : State) (r : OpResult) : (s.answer r).power = s.power := rfl
@[simp] theorem State.answer_lastCvValid (s : State) (r : OpResult) : (s.answer r).lastCvValid = s.lastCvValid := rfl
@[simp] theorem State.answer_lastCvIdx (s : State) (r : OpResult) : (s.answer r).lastCvIdx = s.lastCvIdx := rfl
@[simp] theorem State.answer_lastCvVal (s : State) (r : OpResult) : (s.answer r).lastCvVal = s.lastCvVal := rfl
@[simp] theorem State.answer_now (s : State) (r : OpResult) : (s.answer r).now = s.now := rfl
@[simp] theorem State.answer_inputs (s : State) (r : OpResult) : (s.answer r).inputs = s.inputs := rfl
@[simp] theorem State.answer_out (s : State) (r : OpResult) : (s.answer r).out = { s.out with op := r } := rfl
@[simp] theorem State.answer_lagDraws (s : State) (r : OpResult) : (s.answer r).lagDraws = s.lagDraws := rfl

/-! ### `notify` -/

@[simp] theorem State.notify_params (s : State) (n : Notification) : (s.notify n).params = s.params := by
  unfold State.notify; split <;> rfl
@[simp] theorem State.notify_setupDone (s : State) (n : Notification) : (s.notify n).setupDone = s.setupDone := by
  unfold State.notify; split <;> rfl
@[simp] theorem State.notify_myAddr (s : State) (n : Notification) : (s.notify n).myAddr = s.myAddr := by
  unfold State.notify; split <;> rfl
@[simp] theorem State.notify_auto (s : State) (n : Notification) : (s.notify n).auto = s.auto := by
  unfold State.notify; split <;> rfl
@[simp] theorem State.notify_stepsDef (s : State) (n : Notification) : (s.notify n).stepsDef = s.stepsDef := by
  unfold State.notify; split <;> rfl
@[simp] theorem State.notify_notifyEn (s : State) (n : Notification) : (s.notify n).notifyEn = s.notifyEn := by
  unfold State.notify; split <;> rfl
@[simp] theorem State.notify_role (s : State) (n : Notification) : (s.notify n).role = s.role := by
  unfold State.notify; split <;> rfl
@[simp] theorem State.notify_pollAddr (s : State) (n : Notification) : (s.notify n).pollAddr = s.pollAddr := by
  unfold State.notify; split <;> rfl
@[simp] theorem State.notify_callByte (s : State) (n : Notification) : (s.notify n).callByte = s.callByte := by
  unfold State.notify; split <;> rfl
@[simp] theorem State.notify_missCnt (s : State) (n : Notification) : (s.notify n).missCnt = s.missCnt := by
  unfold State.notify; split <;> rfl
@[simp] theorem State.notify_winOpen (s : State) (n : Notification) : (s.notify n).winOpen = s.winOpen := by
  unfold State.notify; split <;> rfl
@[simp] theorem State.notify_winT0 (s : State) (n : Notification) : (s.notify n).winT0 = s.winT0 := by
  unfold State.notify; split <;> rfl
@[simp] theorem State.notify_oppSeq (s : State) (n : Notification) : (s.notify n).oppSeq = s.oppSeq := by
  unfold State.notify; split <;> rfl
@[simp] theorem State.notify_cbSeen (s : State) (n : Notification) : (s.notify n).cbSeen = s.cbSeen := by
  unfold State.notify; split <;> rfl
@[simp] theorem State.notify_rxaSt (s : State) (n : Notification) : (s.notify n).rxaSt = s.rxaSt := by
  unfold State.notify; split <;> rfl
@[simp] theorem State.notify_rxaRem (s : State) (n : Notification) : (s.notify n).rxaRem = s.rxaRem := by
  unfold State.notify; split <;> rfl
@[simp] theorem State.notify_rxaCb (s : State) (n : Notification) : (s.notify n).rxaCb = s.rxaCb := by
  unfold State.notify; split <;> rfl
@[simp] theorem State.notify_rxRing (s : State) (n : Notification) : (s.notify n).rxRing = s.rxRing := by
  unfold State.notify; split <;> rfl
@[simp] theorem State.notify_txRing (s : State) (n : Notification) : (s.notify n).txRing = s.txRing := by
  unfold State.notify; split <;> rfl
@[simp] theorem State.notify_txActive (s : State) (n : Notification) : (s.notify n).txActive = s.txActive := by
  unfold State.notify; split <;> rfl
@[simp] theorem State.notify_txBuf (s : State) (n : Notification) : (s.notify n).txBuf = s.txBuf := by
  unfold State.notify; split <;> rfl
@[simp] theorem State.notify_txLen (s : State) (n : Notification) : (s.notify n).txLen = s.txLen := by
  unfold State.notify; split <;> rfl
@[simp] theorem State.notify_txIdx (s : State) (n : Notification) : (s.notify n).txIdx = s.txIdx := by
  unfold State.notify; split <;> rfl
@[simp] theorem State.notify_txMark0 (s : State) (n : Notification) : (s.notify n).txMark0 = s.txMark0 := by
  unfold State.notify; split <;> rfl
@[simp] theorem State.notify_txOpensWin (s : State) (n : Notification) : (s.notify n).txOpensWin = s.txOpensWin := by
  unfold State.notify; split <;> rfl
@[simp] theorem State.notify_slots (s : State) (n : Notification) : (s.notify n).slots = s.slots := by
  unfold State.notify; split <;> rfl
@[simp] theorem State.notify_pendInfo (s : State) (n : Notification) : (s.notify n).pendInfo = s.pendInfo := by
  unfold State.notify; split <;> rfl
@[simp] theorem State.notify_pendInfoAddr (s : State) (n : Notification) : (s.notify n).pendInfoAddr = s.pendInfoAddr := by
  unfold State.notify; split <;> rfl
@[simp] theorem State.notify_pendInfoSeq (s : State) (n : Notification) : (s.notify n).pendInfoSeq = s.pendInfoSeq := by
  unfold State.notify; split <;> rfl
@[simp] theorem State.notify_pendFunc (s : State) (n : Notification) : (s.notify n).pendFunc = s.pendFunc := by
  unfold State.notify; split <;> rfl
@[simp] theorem State.notify_pendFuncAddr (s : State) (n : Notification) : (s.notify n).pendFuncAddr = s.pendFuncAddr := by
  unfold State.notify; split <;> rfl
@[simp] theorem State.notify_pendFuncSeq (s : State) (n : Notification) : (s.notify n).pendFuncSeq = s.pendFuncSeq := by
  unfold State.notify; split <;> rfl
@[simp] theorem State.notify_power (s : State) (n : Notification) : (s.notify n).power = s.power := by
  unfold State.notify; split <;> rfl
@[simp] theorem State.notify_lastCvValid (s : State) (n : Notification) : (s.notify n).lastCvValid = s.lastCvValid := by
  unfold State.notify; split <;> rfl
@[simp] theorem State.notify_lastCvIdx (s : State) (n : Notification) : (s.notify n).lastCvIdx = s.lastCvIdx := by
  unfold State.notify; split <;> rfl
@[simp] theorem State.notify_lastCvVal (s : State) (n : Notification) : (s.notify n).lastCvVal = s.lastCvVal := by
  unfold State.notify; split <;> rfl
@[simp] theorem State.notify_now (s : State) (n : Notification) : (s.notify n).now = s.now := by
  unfold State.notify; split <;> rfl
@[simp] theorem State.notify_inputs (s : State) (n : Notification) : (s.notify n).inputs = s.inputs := by
  unfold State.notify; split <;> rfl
@[simp] theorem State.notify_lagDraws (s : State) (n : Notification) : (s.notify n).lagDraws = s.lagDraws := by
  unfold State.notify; split <;> rfl

/-! ### `failCmd` -/

@[simp] theorem State.failCmd_params (s : State) (st : Status) (v : Byte) : (s.failCmd st v).params = s.params := by
  unfold State.failCmd; split <;> rfl
@[simp] theorem State.failCmd_setupDone (s : State) (st : Status) (v : Byte) : (s.failCmd st v).setupDone = s.setupDone := by
  unfold State.failCmd; split <;> rfl
@[simp] theorem State.failCmd_myAddr (s : State) (st : Status) (v : Byte) : (s.failCmd st v).myAddr = s.myAddr := by
  unfold State.failCmd; split <;> rfl
@[simp] theorem State.failCmd_auto (s : State) (st : Status) (v : Byte) : (s.failCmd st v).auto = s.auto := by
  unfold State.failCmd; split <;> rfl
@[simp] theorem State.failCmd_stepsDef (s : State) (st : Status) (v : Byte) : (s.failCmd st v).stepsDef = s.stepsDef := by
  unfold State.failCmd; split <;> rfl
@[simp] theorem State.failCmd_notifyEn (s : State) (st : Status) (v : Byte) : (s.failCmd st v).notifyEn = s.notifyEn := by
  unfold State.failCmd; split <;> rfl
@[simp] theorem State.failCmd_role (s : State) (st : Status) (v : Byte) : (s.failCmd st v).role = s.role := by
  unfold State.failCmd; split <;> rfl
@[simp] theorem State.failCmd_pollAddr (s : State) (st : Status) (v : Byte) : (s.failCmd st v).pollAddr = s.pollAddr := by
  unfold State.failCmd; split <;> rfl
@[simp] theorem State.failCmd_callByte (s : State) (st : Status) (v : Byte) : (s.failCmd st v).callByte = s.callByte := by
  unfold State.failCmd; split <;> rfl
@[simp] theorem State.failCmd_missCnt (s : State) (st : Status) (v : Byte) : (s.failCmd st v).missCnt = s.missCnt := by
  unfold State.failCmd; split <;> rfl
@[simp] theorem State.failCmd_winOpen (s : State) (st : Status) (v : Byte) : (s.failCmd st v).winOpen = s.winOpen := by
  unfold State.failCmd; split <;> rfl
@[simp] theorem State.failCmd_winT0 (s : State) (st : Status) (v : Byte) : (s.failCmd st v).winT0 = s.winT0 := by
  unfold State.failCmd; split <;> rfl
@[simp] theorem State.failCmd_oppSeq (s : State) (st : Status) (v : Byte) : (s.failCmd st v).oppSeq = s.oppSeq := by
  unfold State.failCmd; split <;> rfl
@[simp] theorem State.failCmd_cbSeen (s : State) (st : Status) (v : Byte) : (s.failCmd st v).cbSeen = s.cbSeen := by
  unfold State.failCmd; split <;> rfl
@[simp] theorem State.failCmd_rxaSt (s : State) (st : Status) (v : Byte) : (s.failCmd st v).rxaSt = s.rxaSt := by
  unfold State.failCmd; split <;> rfl
@[simp] theorem State.failCmd_rxaRem (s : State) (st : Status) (v : Byte) : (s.failCmd st v).rxaRem = s.rxaRem := by
  unfold State.failCmd; split <;> rfl
@[simp] theorem State.failCmd_rxaCb (s : State) (st : Status) (v : Byte) : (s.failCmd st v).rxaCb = s.rxaCb := by
  unfold State.failCmd; split <;> rfl
@[simp] theorem State.failCmd_rxRing (s : State) (st : Status) (v : Byte) : (s.failCmd st v).rxRing = s.rxRing := by
  unfold State.failCmd; split <;> rfl
@[simp] theorem State.failCmd_txRing (s : State) (st : Status) (v : Byte) : (s.failCmd st v).txRing = s.txRing := by
  unfold State.failCmd; split <;> rfl
@[simp] theorem State.failCmd_txActive (s : State) (st : Status) (v : Byte) : (s.failCmd st v).txActive = s.txActive := by
  unfold State.failCmd; split <;> rfl
@[simp] theorem State.failCmd_txBuf (s : State) (st : Status) (v : Byte) : (s.failCmd st v).txBuf = s.txBuf := by
  unfold State.failCmd; split <;> rfl
@[simp] theorem State.failCmd_txLen (s : State) (st : Status) (v : Byte) : (s.failCmd st v).txLen = s.txLen := by
  unfold State.failCmd; split <;> rfl
@[simp] theorem State.failCmd_txIdx (s : State) (st : Status) (v : Byte) : (s.failCmd st v).txIdx = s.txIdx := by
  unfold State.failCmd; split <;> rfl
@[simp] theorem State.failCmd_txMark0 (s : State) (st : Status) (v : Byte) : (s.failCmd st v).txMark0 = s.txMark0 := by
  unfold State.failCmd; split <;> rfl
@[simp] theorem State.failCmd_txOpensWin (s : State) (st : Status) (v : Byte) : (s.failCmd st v).txOpensWin = s.txOpensWin := by
  unfold State.failCmd; split <;> rfl
@[simp] theorem State.failCmd_slots (s : State) (st : Status) (v : Byte) : (s.failCmd st v).slots = s.slots := by
  unfold State.failCmd; split <;> rfl
@[simp] theorem State.failCmd_pendInfo (s : State) (st : Status) (v : Byte) : (s.failCmd st v).pendInfo = s.pendInfo := by
  unfold State.failCmd; split <;> rfl
@[simp] theorem State.failCmd_pendInfoAddr (s : State) (st : Status) (v : Byte) : (s.failCmd st v).pendInfoAddr = s.pendInfoAddr := by
  unfold State.failCmd; split <;> rfl
@[simp] theorem State.failCmd_pendInfoSeq (s : State) (st : Status) (v : Byte) : (s.failCmd st v).pendInfoSeq = s.pendInfoSeq := by
  unfold State.failCmd; split <;> rfl
@[simp] theorem State.failCmd_pendFunc (s : State) (st : Status) (v : Byte) : (s.failCmd st v).pendFunc = s.pendFunc := by
  unfold State.failCmd; split <;> rfl
@[simp] theorem State.failCmd_pendFuncAddr (s : State) (st : Status) (v : Byte) : (s.failCmd st v).pendFuncAddr = s.pendFuncAddr := by
  unfold State.failCmd; split <;> rfl
@[simp] theorem State.failCmd_pendFuncSeq (s : State) (st : Status) (v : Byte) : (s.failCmd st v).pendFuncSeq = s.pendFuncSeq := by
  unfold State.failCmd; split <;> rfl
@[simp] theorem State.failCmd_power (s : State) (st : Status) (v : Byte) : (s.failCmd st v).power = s.power := by
  unfold State.failCmd; split <;> rfl
@[simp] theorem State.failCmd_lastCvValid (s : State) (st : Status) (v : Byte) : (s.failCmd st v).lastCvValid = s.lastCvValid := by
  unfold State.failCmd; split <;> rfl
@[simp] theorem State.failCmd_lastCvIdx (s : State) (st : Status) (v : Byte) : (s.failCmd st v).lastCvIdx = s.lastCvIdx := by
  unfold State.failCmd; split <;> rfl
@[simp] theorem State.failCmd_lastCvVal (s : State) (st : Status) (v : Byte) : (s.failCmd st v).lastCvVal = s.lastCvVal := by
  unfold State.failCmd; split <;> rfl
@[simp] theorem State.failCmd_now (s : State) (st : Status) (v : Byte) : (s.failCmd st v).now = s.now := by
  unfold State.failCmd; split <;> rfl
@[simp] theorem State.failCmd_inputs (s : State) (st : Status) (v : Byte) : (s.failCmd st v).inputs = s.inputs := by
  unfold State.failCmd; split <;> rfl
@[simp] theorem State.failCmd_lagDraws (s : State) (st : Status) (v : Byte) : (s.failCmd st v).lagDraws = s.lagDraws := by
  unfold State.failCmd; split <;> rfl

/-! ### `armParser` -/

@[simp] theorem State.armParser_params (s : State) (cb : Byte) : (s.armParser cb).params = s.params := rfl
@[simp] theorem State.armParser_setupDone (s : State) (cb : Byte) : (s.armParser cb).setupDone = s.setupDone := rfl
@[simp] theorem State.armParser_myAddr (s : State) (cb : Byte) : (s.armParser cb).myAddr = s.myAddr := rfl
@[simp] theorem State.armParser_auto (s : State) (cb : Byte) : (s.armParser cb).auto = s.auto := rfl
@[simp] theorem State.armParser_stepsDef (s : State) (cb : Byte) : (s.armParser cb).stepsDef = s.stepsDef := rfl
@[simp] theorem State.armParser_notifyEn (s : State) (cb : Byte) : (s.armParser cb).notifyEn = s.notifyEn := rfl
@[simp] theorem State.armParser_role (s : State) (cb : Byte) : (s.armParser cb).role = s.role := rfl
@[simp] theorem State.armParser_pollAddr (s : State) (cb : Byte) : (s.armParser cb).pollAddr = s.pollAddr := rfl
@[simp] theorem State.armParser_callByte (s : State) (cb : Byte) : (s.armParser cb).callByte = s.callByte := rfl
@[simp] theorem State.armParser_missCnt (s : State) (cb : Byte) : (s.armParser cb).missCnt = s.missCnt := rfl
@[simp] theorem State.armParser_winOpen (s : State) (cb : Byte) : (s.armParser cb).winOpen = s.winOpen := rfl
@[simp] theorem State.armParser_winT0 (s : State) (cb : Byte) : (s.armParser cb).winT0 = s.winT0 := rfl
@[simp] theorem State.armParser_oppSeq (s : State) (cb : Byte) : (s.armParser cb).oppSeq = s.oppSeq := rfl
@[simp] theorem State.armParser_cbSeen (s : State) (cb : Byte) : (s.armParser cb).cbSeen = s.cbSeen := rfl
@[simp] theorem State.armParser_rxaSt (s : State) (cb : Byte) : (s.armParser cb).rxaSt = .header := rfl
@[simp] theorem State.armParser_rxaRem (s : State) (cb : Byte) : (s.armParser cb).rxaRem = s.rxaRem := rfl
@[simp] theorem State.armParser_rxaCb (s : State) (cb : Byte) : (s.armParser cb).rxaCb = cb := rfl
@[simp] theorem State.armParser_rxRing (s : State) (cb : Byte) : (s.armParser cb).rxRing = s.rxRing := rfl
@[simp] theorem State.armParser_txRing (s : State) (cb : Byte) : (s.armParser cb).txRing = s.txRing := rfl
@[simp] theorem State.armParser_txActive (s : State) (cb : Byte) : (s.armParser cb).txActive = s.txActive := rfl
@[simp] theorem State.armParser_txBuf (s : State) (cb : Byte) : (s.armParser cb).txBuf = s.txBuf := rfl
@[simp] theorem State.armParser_txLen (s : State) (cb : Byte) : (s.armParser cb).txLen = s.txLen := rfl
@[simp] theorem State.armParser_txIdx (s : State) (cb : Byte) : (s.armParser cb).txIdx = s.txIdx := rfl
@[simp] theorem State.armParser_txMark0 (s : State) (cb : Byte) : (s.armParser cb).txMark0 = s.txMark0 := rfl
@[simp] theorem State.armParser_txOpensWin (s : State) (cb : Byte) : (s.armParser cb).txOpensWin = s.txOpensWin := rfl
@[simp] theorem State.armParser_slots (s : State) (cb : Byte) : (s.armParser cb).slots = s.slots := rfl
@[simp] theorem State.armParser_pendInfo (s : State) (cb : Byte) : (s.armParser cb).pendInfo = s.pendInfo := rfl
@[simp] theorem State.armParser_pendInfoAddr (s : State) (cb : Byte) : (s.armParser cb).pendInfoAddr = s.pendInfoAddr := rfl
@[simp] theorem State.armParser_pendInfoSeq (s : State) (cb : Byte) : (s.armParser cb).pendInfoSeq = s.pendInfoSeq := rfl
@[simp] theorem State.armParser_pendFunc (s : State) (cb : Byte) : (s.armParser cb).pendFunc = s.pendFunc := rfl
@[simp] theorem State.armParser_pendFuncAddr (s : State) (cb : Byte) : (s.armParser cb).pendFuncAddr = s.pendFuncAddr := rfl
@[simp] theorem State.armParser_pendFuncSeq (s : State) (cb : Byte) : (s.armParser cb).pendFuncSeq = s.pendFuncSeq := rfl
@[simp] theorem State.armParser_power (s : State) (cb : Byte) : (s.armParser cb).power = s.power := rfl
@[simp] theorem State.armParser_lastCvValid (s : State) (cb : Byte) : (s.armParser cb).lastCvValid = s.lastCvValid := rfl
@[simp] theorem State.armParser_lastCvIdx (s : State) (cb : Byte) : (s.armParser cb).lastCvIdx = s.lastCvIdx := rfl
@[simp] theorem State.armParser_lastCvVal (s : State) (cb : Byte) : (s.armParser cb).lastCvVal = s.lastCvVal := rfl
@[simp] theorem State.armParser_now (s : State) (cb : Byte) : (s.armParser cb).now = s.now := rfl
@[simp] theorem State.armParser_inputs (s : State) (cb : Byte) : (s.armParser cb).inputs = s.inputs := rfl
@[simp] theorem State.armParser_out (s : State) (cb : Byte) : (s.armParser cb).out = s.out := rfl
@[simp] theorem State.armParser_lagDraws (s : State) (cb : Byte) : (s.armParser cb).lagDraws = s.lagDraws := rfl

/-! ### `startTx` -/

@[simp] theorem State.startTx_params (s : State) (bs : List Byte) (m o : Bool) : (s.startTx bs m o).params = s.params := rfl
@[simp] theorem State.startTx_setupDone (s : State) (bs : List Byte) (m o : Bool) : (s.startTx bs m o).setupDone = s.setupDone := rfl
@[simp] theorem State.startTx_myAddr (s : State) (bs : List Byte) (m o : Bool) : (s.startTx bs m o).myAddr = s.myAddr := rfl
@[simp] theorem State.startTx_auto (s : State) (bs : List Byte) (m o : Bool) : (s.startTx bs m o).auto = s.auto := rfl
@[simp] theorem State.startTx_stepsDef (s : State) (bs : List Byte) (m o : Bool) : (s.startTx bs m o).stepsDef = s.stepsDef := rfl
@[simp] theorem State.startTx_notifyEn (s : State) (bs : List Byte) (m o : Bool) : (s.startTx bs m o).notifyEn = s.notifyEn := rfl
@[simp] theorem State.startTx_role (s : State) (bs : List Byte) (m o : Bool) : (s.startTx bs m o).role = s.role := rfl
@[simp] theorem State.startTx_pollAddr (s : State) (bs : List Byte) (m o : Bool) : (s.startTx bs m o).pollAddr = s.pollAddr := rfl
@[simp] theorem State.startTx_callByte (s : State) (bs : List Byte) (m o : Bool) : (s.startTx bs m o).callByte = s.callByte := rfl
@[simp] theorem State.startTx_missCnt (s : State) (bs : List Byte) (m o : Bool) : (s.startTx bs m o).missCnt = s.missCnt := rfl
@[simp] theorem State.startTx_winOpen (s : State) (bs : List Byte) (m o : Bool) : (s.startTx bs m o).winOpen = s.winOpen := rfl
@[simp] theorem State.startTx_winT0 (s : State) (bs : List Byte) (m o : Bool) : (s.startTx bs m o).winT0 = s.winT0 := rfl
@[simp] theorem State.startTx_oppSeq (s : State) (bs : List Byte) (m o : Bool) : (s.startTx bs m o).oppSeq = s.oppSeq := rfl
@[simp] theorem State.startTx_cbSeen (s : State) (bs : List Byte) (m o : Bool) : (s.startTx bs m o).cbSeen = s.cbSeen := rfl
@[simp] theorem State.startTx_rxaSt (s : State) (bs : List Byte) (m o : Bool) : (s.startTx bs m o).rxaSt = s.rxaSt := rfl
@[simp] theorem State.startTx_rxaRem (s : State) (bs : List Byte) (m o : Bool) : (s.startTx bs m o).rxaRem = s.rxaRem := rfl
@[simp] theorem State.startTx_rxaCb (s : State) (bs : List Byte) (m o : Bool) : (s.startTx bs m o).rxaCb = s.rxaCb := rfl
@[simp] theorem State.startTx_rxRing (s : State) (bs : List Byte) (m o : Bool) : (s.startTx bs m o).rxRing = s.rxRing := rfl
@[simp] theorem State.startTx_txRing (s : State) (bs : List Byte) (m o : Bool) : (s.startTx bs m o).txRing = s.txRing := rfl
@[simp] theorem State.startTx_txActive (s : State) (bs : List Byte) (m o : Bool) : (s.startTx bs m o).txActive = true := rfl
@[simp] theorem State.startTx_txBuf (s : State) (bs : List Byte) (m o : Bool) : (s.startTx bs m o).txBuf = (bs ++ s.txBuf.drop bs.length).take Config.msgMax := rfl
@[simp] theorem State.startTx_txLen (s : State) (bs : List Byte) (m o : Bool) : (s.startTx bs m o).txLen = bs.length := rfl
@[simp] theorem State.startTx_txIdx (s : State) (bs : List Byte) (m o : Bool) : (s.startTx bs m o).txIdx = 0 := rfl
@[simp] theorem State.startTx_txMark0 (s : State) (bs : List Byte) (m o : Bool) : (s.startTx bs m o).txMark0 = m := rfl
@[simp] theorem State.startTx_txOpensWin (s : State) (bs : List Byte) (m o : Bool) : (s.startTx bs m o).txOpensWin = o := rfl
@[simp] theorem State.startTx_slots (s : State) (bs : List Byte) (m o : Bool) : (s.startTx bs m o).slots = s.slots := rfl
@[simp] theorem State.startTx_pendInfo (s : State) (bs : List Byte) (m o : Bool) : (s.startTx bs m o).pendInfo = s.pendInfo := rfl
@[simp] theorem State.startTx_pendInfoAddr (s : State) (bs : List Byte) (m o : Bool) : (s.startTx bs m o).pendInfoAddr = s.pendInfoAddr := rfl
@[simp] theorem State.startTx_pendInfoSeq (s : State) (bs : List Byte) (m o : Bool) : (s.startTx bs m o).pendInfoSeq = s.pendInfoSeq := rfl
@[simp] theorem State.startTx_pendFunc (s : State) (bs : List Byte) (m o : Bool) : (s.startTx bs m o).pendFunc = s.pendFunc := rfl
@[simp] theorem State.startTx_pendFuncAddr (s : State) (bs : List Byte) (m o : Bool) : (s.startTx bs m o).pendFuncAddr = s.pendFuncAddr := rfl
@[simp] theorem State.startTx_pendFuncSeq (s : State) (bs : List Byte) (m o : Bool) : (s.startTx bs m o).pendFuncSeq = s.pendFuncSeq := rfl
@[simp] theorem State.startTx_power (s : State) (bs : List Byte) (m o : Bool) : (s.startTx bs m o).power = s.power := rfl
@[simp] theorem State.startTx_lastCvValid (s : State) (bs : List Byte) (m o : Bool) : (s.startTx bs m o).lastCvValid = s.lastCvValid := rfl
@[simp] theorem State.startTx_lastCvIdx (s : State) (bs : List Byte) (m o : Bool) : (s.startTx bs m o).lastCvIdx = s.lastCvIdx := rfl
@[simp] theorem State.startTx_lastCvVal (s : State) (bs : List Byte) (m o : Bool) : (s.startTx bs m o).lastCvVal = s.lastCvVal := rfl
@[simp] theorem State.startTx_now (s : State) (bs : List Byte) (m o : Bool) : (s.startTx bs m o).now = s.now := rfl
@[simp] theorem State.startTx_inputs (s : State) (bs : List Byte) (m o : Bool) : (s.startTx bs m o).inputs = s.inputs := rfl
@[simp] theorem State.startTx_out (s : State) (bs : List Byte) (m o : Bool) : (s.startTx bs m o).out = s.out := rfl
@[simp] theorem State.startTx_lagDraws (s : State) (bs : List Byte) (m o : Bool) : (s.startTx bs m o).lagDraws = s.lagDraws := rfl

/-! ### `sendByte` -/

@[simp] theorem State.sendByte_params (s : State) : (s.sendByte).params = s.params := rfl
@[simp] theorem State.sendByte_setupDone (s : State) : (s.sendByte).setupDone = s.setupDone := rfl
@[simp] theorem State.sendByte_myAddr (s : State) : (s.sendByte).myAddr = s.myAddr := rfl
@[simp] theorem State.sendByte_auto (s : State) : (s.sendByte).auto = s.auto := rfl
@[simp] theorem State.sendByte_stepsDef (s : State) : (s.sendByte).stepsDef = s.stepsDef := rfl
@[simp] theorem State.sendByte_notifyEn (s : State) : (s.sendByte).notifyEn = s.notifyEn := rfl
@[simp] theorem State.sendByte_role (s : State) : (s.sendByte).role = s.role := rfl
@[simp] theorem State.sendByte_pollAddr (s : State) : (s.sendByte).pollAddr = s.pollAddr := rfl
@[simp] theorem State.sendByte_callByte (s : State) : (s.sendByte).callByte = s.callByte := rfl
@[simp] theorem State.sendByte_missCnt (s : State) : (s.sendByte).missCnt = s.missCnt := rfl
@[simp] theorem State.sendByte_winOpen (s : State) : (s.sendByte).winOpen = s.winOpen := rfl
@[simp] theorem State.sendByte_winT0 (s : State) : (s.sendByte).winT0 = s.winT0 := rfl
@[simp] theorem State.sendByte_oppSeq (s : State) : (s.sendByte).oppSeq = s.oppSeq := rfl
@[simp] theorem State.sendByte_cbSeen (s : State) : (s.sendByte).cbSeen = s.cbSeen := rfl
@[simp] theorem State.sendByte_rxaSt (s : State) : (s.sendByte).rxaSt = s.rxaSt := rfl
@[simp] theorem State.sendByte_rxaRem (s : State) : (s.sendByte).rxaRem = s.rxaRem := rfl
@[simp] theorem State.sendByte_rxaCb (s : State) : (s.sendByte).rxaCb = s.rxaCb := rfl
@[simp] theorem State.sendByte_rxRing (s : State) : (s.sendByte).rxRing = s.rxRing := rfl
@[simp] theorem State.sendByte_txRing (s : State) : (s.sendByte).txRing = s.txRing := rfl
@[simp] theorem State.sendByte_txActive (s : State) : (s.sendByte).txActive = s.txActive := rfl
@[simp] theorem State.sendByte_txBuf (s : State) : (s.sendByte).txBuf = s.txBuf := rfl
@[simp] theorem State.sendByte_txLen (s : State) : (s.sendByte).txLen = s.txLen := rfl
@[simp] theorem State.sendByte_txIdx (s : State) : (s.sendByte).txIdx = s.txIdx + 1 := rfl
@[simp] theorem State.sendByte_txMark0 (s : State) : (s.sendByte).txMark0 = s.txMark0 := rfl
@[simp] theorem State.sendByte_txOpensWin (s : State) : (s.sendByte).txOpensWin = s.txOpensWin := rfl
@[simp] theorem State.sendByte_slots (s : State) : (s.sendByte).slots = s.slots := rfl
@[simp] theorem State.sendByte_pendInfo (s : State) : (s.sendByte).pendInfo = s.pendInfo := rfl
@[simp] theorem State.sendByte_pendInfoAddr (s : State) : (s.sendByte).pendInfoAddr = s.pendInfoAddr := rfl
@[simp] theorem State.sendByte_pendInfoSeq (s : State) : (s.sendByte).pendInfoSeq = s.pendInfoSeq := rfl
@[simp] theorem State.sendByte_pendFunc (s : State) : (s.sendByte).pendFunc = s.pendFunc := rfl
@[simp] theorem State.sendByte_pendFuncAddr (s : State) : (s.sendByte).pendFuncAddr = s.pendFuncAddr := rfl
@[simp] theorem State.sendByte_pendFuncSeq (s : State) : (s.sendByte).pendFuncSeq = s.pendFuncSeq := rfl
@[simp] theorem State.sendByte_power (s : State) : (s.sendByte).power = s.power := rfl
@[simp] theorem State.sendByte_lastCvValid (s : State) : (s.sendByte).lastCvValid = s.lastCvValid := rfl
@[simp] theorem State.sendByte_lastCvIdx (s : State) : (s.sendByte).lastCvIdx = s.lastCvIdx := rfl
@[simp] theorem State.sendByte_lastCvVal (s : State) : (s.sendByte).lastCvVal = s.lastCvVal := rfl
@[simp] theorem State.sendByte_now (s : State) : (s.sendByte).now = s.now := rfl
@[simp] theorem State.sendByte_inputs (s : State) : (s.sendByte).inputs = s.inputs := rfl
@[simp] theorem State.sendByte_out (s : State) : (s.sendByte).out = { s.out with tx := some (s.txMark0 && s.txIdx == 0, byteAt s.txBuf s.txIdx) } := rfl
@[simp] theorem State.sendByte_lagDraws (s : State) : (s.sendByte).lagDraws = s.lagDraws := rfl

/-! ### `cacheCv` -/

@[simp] theorem State.cacheCv_params (s : State) (cv v : Byte) : (s.cacheCv cv v).params = s.params := rfl
@[simp] theorem State.cacheCv_setupDone (s : State) (cv v : Byte) : (s.cacheCv cv v).setupDone = s.setupDone := rfl
@[simp] theorem State.cacheCv_myAddr (s : State) (cv v : Byte) : (s.cacheCv cv v).myAddr = s.myAddr := rfl
@[simp] theorem State.cacheCv_auto (s : State) (cv v : Byte) : (s.cacheCv cv v).auto = s.auto := rfl
@[simp] theorem State.cacheCv_stepsDef (s : State) (cv v : Byte) : (s.cacheCv cv v).stepsDef = s.stepsDef := rfl
@[simp] theorem State.cacheCv_notifyEn (s : State) (cv v : Byte) : (s.cacheCv cv v).notifyEn = s.notifyEn := rfl
@[simp] theorem State.cacheCv_role (s : State) (cv v : Byte) : (s.cacheCv cv v).role = s.role := rfl
@[simp] theorem State.cacheCv_pollAddr (s : State) (cv v : Byte) : (s.cacheCv cv v).pollAddr = s.pollAddr := rfl
@[simp] theorem State.cacheCv_callByte (s : State) (cv v : Byte) : (s.cacheCv cv v).callByte = s.callByte := rfl
@[simp] theorem State.cacheCv_missCnt (s : State) (cv v : Byte) : (s.cacheCv cv v).missCnt = s.missCnt := rfl
@[simp] theorem State.cacheCv_winOpen (s : State) (cv v : Byte) : (s.cacheCv cv v).winOpen = s.winOpen := rfl
@[simp] theorem State.cacheCv_winT0 (s : State) (cv v : Byte) : (s.cacheCv cv v).winT0 = s.winT0 := rfl
@[simp] theorem State.cacheCv_oppSeq (s : State) (cv v : Byte) : (s.cacheCv cv v).oppSeq = s.oppSeq := rfl
@[simp] theorem State.cacheCv_cbSeen (s : State) (cv v : Byte) : (s.cacheCv cv v).cbSeen = s.cbSeen := rfl
@[simp] theorem State.cacheCv_rxaSt (s : State) (cv v : Byte) : (s.cacheCv cv v).rxaSt = s.rxaSt := rfl
@[simp] theorem State.cacheCv_rxaRem (s : State) (cv v : Byte) : (s.cacheCv cv v).rxaRem = s.rxaRem := rfl
@[simp] theorem State.cacheCv_rxaCb (s : State) (cv v : Byte) : (s.cacheCv cv v).rxaCb = s.rxaCb := rfl
@[simp] theorem State.cacheCv_rxRing (s : State) (cv v : Byte) : (s.cacheCv cv v).rxRing = s.rxRing := rfl
@[simp] theorem State.cacheCv_txRing (s : State) (cv v : Byte) : (s.cacheCv cv v).txRing = s.txRing := rfl
@[simp] theorem State.cacheCv_txActive (s : State) (cv v : Byte) : (s.cacheCv cv v).txActive = s.txActive := rfl
@[simp] theorem State.cacheCv_txBuf (s : State) (cv v : Byte) : (s.cacheCv cv v).txBuf = s.txBuf := rfl
@[simp] theorem State.cacheCv_txLen (s : State) (cv v : Byte) : (s.cacheCv cv v).txLen = s.txLen := rfl
@[simp] theorem State.cacheCv_txIdx (s : State) (cv v : Byte) : (s.cacheCv cv v).txIdx = s.txIdx := rfl
@[simp] theorem State.cacheCv_txMark0 (s : State) (cv v : Byte) : (s.cacheCv cv v).txMark0 = s.txMark0 := rfl
@[simp] theorem State.cacheCv_txOpensWin (s : State) (cv v : Byte) : (s.cacheCv cv v).txOpensWin = s.txOpensWin := rfl
@[simp] theorem State.cacheCv_slots (s : State) (cv v : Byte) : (s.cacheCv cv v).slots = s.slots := rfl
@[simp] theorem State.cacheCv_pendInfo (s : State) (cv v : Byte) : (s.cacheCv cv v).pendInfo = s.pendInfo := rfl
@[simp] theorem State.cacheCv_pendInfoAddr (s : State) (cv v : Byte) : (s.cacheCv cv v).pendInfoAddr = s.pendInfoAddr := rfl
@[simp] theorem State.cacheCv_pendInfoSeq (s : State) (cv v : Byte) : (s.cacheCv cv v).pendInfoSeq = s.pendInfoSeq := rfl
@[simp] theorem State.cacheCv_pendFunc (s : State) (cv v : Byte) : (s.cacheCv cv v).pendFunc = s.pendFunc := rfl
@[simp] theorem State.cacheCv_pendFuncAddr (s : State) (cv v : Byte) : (s.cacheCv cv v).pendFuncAddr = s.pendFuncAddr := rfl
@[simp] theorem State.cacheCv_pendFuncSeq (s : State) (cv v : Byte) : (s.cacheCv cv v).pendFuncSeq = s.pendFuncSeq := rfl
@[simp] theorem State.cacheCv_power (s : State) (cv v : Byte) : (s.cacheCv cv v).power = s.power := rfl
@[simp] theorem State.cacheCv_lastCvValid (s : State) (cv v : Byte) : (s.cacheCv cv v).lastCvValid = true := rfl
@[simp] theorem State.cacheCv_lastCvIdx (s : State) (cv v : Byte) : (s.cacheCv cv v).lastCvIdx = cv := rfl
@[simp] theorem State.cacheCv_lastCvVal (s : State) (cv v : Byte) : (s.cacheCv cv v).lastCvVal = v := rfl
@[simp] theorem State.cacheCv_now (s : State) (cv v : Byte) : (s.cacheCv cv v).now = s.now := rfl
@[simp] theorem State.cacheCv_inputs (s : State) (cv v : Byte) : (s.cacheCv cv v).inputs = s.inputs := rfl
@[simp] theorem State.cacheCv_out (s : State) (cv v : Byte) : (s.cacheCv cv v).out = s.out := rfl
@[simp] theorem State.cacheCv_lagDraws (s : State) (cv v : Byte) : (s.cacheCv cv v).lagDraws = s.lagDraws := rfl

/-! ### `completeRx` -/

@[simp] theorem State.completeRx_params (s : State) : (s.completeRx).params = s.params := rfl
@[simp] theorem State.completeRx_setupDone (s : State) : (s.completeRx).setupDone = s.setupDone := rfl
@[simp] theorem State.completeRx_myAddr (s : State) : (s.completeRx).myAddr = s.myAddr := rfl
@[simp] theorem State.completeRx_auto (s : State) : (s.completeRx).auto = s.auto := rfl
@[simp] theorem State.completeRx_stepsDef (s : State) : (s.completeRx).stepsDef = s.stepsDef := rfl
@[simp] theorem State.completeRx_notifyEn (s : State) : (s.completeRx).notifyEn = s.notifyEn := rfl
@[simp] theorem State.completeRx_role (s : State) : (s.completeRx).role = s.role := rfl
@[simp] theorem State.completeRx_pollAddr (s : State) : (s.completeRx).pollAddr = s.pollAddr := rfl
@[simp] theorem State.completeRx_callByte (s : State) : (s.completeRx).callByte = s.callByte := rfl
@[simp] theorem State.completeRx_missCnt (s : State) : (s.completeRx).missCnt = s.missCnt := rfl
@[simp] theorem State.completeRx_winOpen (s : State) : (s.completeRx).winOpen = if s.role = .master then false else s.winOpen := rfl
@[simp] theorem State.completeRx_winT0 (s : State) : (s.completeRx).winT0 = s.winT0 := rfl
@[simp] theorem State.completeRx_oppSeq (s : State) : (s.completeRx).oppSeq = s.oppSeq := rfl
@[simp] theorem State.completeRx_cbSeen (s : State) : (s.completeRx).cbSeen = s.cbSeen := rfl
@[simp] theorem State.completeRx_rxaSt (s : State) : (s.completeRx).rxaSt = .idle := rfl
@[simp] theorem State.completeRx_rxaRem (s : State) : (s.completeRx).rxaRem = s.rxaRem := rfl
@[simp] theorem State.completeRx_rxaCb (s : State) : (s.completeRx).rxaCb = s.rxaCb := rfl
@[simp] theorem State.completeRx_rxRing (s : State) : (s.completeRx).rxRing = s.rxRing.commit s.params.cap s.params.syncLag := rfl
@[simp] theorem State.completeRx_txRing (s : State) : (s.completeRx).txRing = s.txRing := rfl
@[simp] theorem State.completeRx_txActive (s : State) : (s.completeRx).txActive = s.txActive := rfl
@[simp] theorem State.completeRx_txBuf (s : State) : (s.completeRx).txBuf = s.txBuf := rfl
@[simp] theorem State.completeRx_txLen (s : State) : (s.completeRx).txLen = s.txLen := rfl
@[simp] theorem State.completeRx_txIdx (s : State) : (s.completeRx).txIdx = s.txIdx := rfl
@[simp] theorem State.completeRx_txMark0 (s : State) : (s.completeRx).txMark0 = s.txMark0 := rfl
@[simp] theorem State.completeRx_txOpensWin (s : State) : (s.completeRx).txOpensWin = s.txOpensWin := rfl
@[simp] theorem State.completeRx_slots (s : State) : (s.completeRx).slots = s.slots := rfl
@[simp] theorem State.completeRx_pendInfo (s : State) : (s.completeRx).pendInfo = s.pendInfo := rfl
@[simp] theorem State.completeRx_pendInfoAddr (s : State) : (s.completeRx).pendInfoAddr = s.pendInfoAddr := rfl
@[simp] theorem State.completeRx_pendInfoSeq (s : State) : (s.completeRx).pendInfoSeq = s.pendInfoSeq := rfl
@[simp] theorem State.completeRx_pendFunc (s : State) : (s.completeRx).pendFunc = s.pendFunc := rfl
@[simp] theorem State.completeRx_pendFuncAddr (s : State) : (s.completeRx).pendFuncAddr = s.pendFuncAddr := rfl
@[simp] theorem State.completeRx_pendFuncSeq (s : State) : (s.completeRx).pendFuncSeq = s.pendFuncSeq := rfl
@[simp] theorem State.completeRx_power (s : State) : (s.completeRx).power = s.power := rfl
@[simp] theorem State.completeRx_lastCvValid (s : State) : (s.completeRx).lastCvValid = s.lastCvValid := rfl
@[simp] theorem State.completeRx_lastCvIdx (s : State) : (s.completeRx).lastCvIdx = s.lastCvIdx := rfl
@[simp] theorem State.completeRx_lastCvVal (s : State) : (s.completeRx).lastCvVal = s.lastCvVal := rfl
@[simp] theorem State.completeRx_now (s : State) : (s.completeRx).now = s.now := rfl
@[simp] theorem State.completeRx_inputs (s : State) : (s.completeRx).inputs = s.inputs := rfl
@[simp] theorem State.completeRx_out (s : State) : (s.completeRx).out = s.out := rfl
@[simp] theorem State.completeRx_lagDraws (s : State) : (s.completeRx).lagDraws = s.lagDraws := rfl

/-! ### `parserReset` -/

@[simp] theorem State.parserReset_params (s : State) : (s.parserReset).params = s.params := by
  unfold State.parserReset; split <;> rfl
@[simp] theorem State.parserReset_setupDone (s : State) : (s.parserReset).setupDone = s.setupDone := by
  unfold State.parserReset; split <;> rfl
@[simp] theorem State.parserReset_myAddr (s : State) : (s.parserReset).myAddr = s.myAddr := by
  unfold State.parserReset; split <;> rfl
@[simp] theorem State.parserReset_auto (s : State) : (s.parserReset).auto = s.auto := by
  unfold State.parserReset; split <;> rfl
@[simp] theorem State.parserReset_stepsDef (s : State) : (s.parserReset).stepsDef = s.stepsDef := by
  unfold State.parserReset; split <;> rfl
@[simp] theorem State.parserReset_notifyEn (s : State) : (s.parserReset).notifyEn = s.notifyEn := by
  unfold State.parserReset; split <;> rfl
@[simp] theorem State.parserReset_role (s : State) : (s.parserReset).role = s.role := by
  unfold State.parserReset; split <;> rfl
@[simp] theorem State.parserReset_pollAddr (s : State) : (s.parserReset).pollAddr = s.pollAddr := by
  unfold State.parserReset; split <;> rfl
@[simp] theorem State.parserReset_callByte (s : State) : (s.parserReset).callByte = s.callByte := by
  unfold State.parserReset; split <;> rfl
@[simp] theorem State.parserReset_missCnt (s : State) : (s.parserReset).missCnt = s.missCnt := by
  unfold State.parserReset; split <;> rfl
@[simp] theorem State.parserReset_winOpen (s : State) : (s.parserReset).winOpen = s.winOpen := by
  unfold State.parserReset; split <;> rfl
@[simp] theorem State.parserReset_winT0 (s : State) : (s.parserReset).winT0 = s.winT0 := by
  unfold State.parserReset; split <;> rfl
@[simp] theorem State.parserReset_oppSeq (s : State) : (s.parserReset).oppSeq = s.oppSeq := by
  unfold State.parserReset; split <;> rfl
@[simp] theorem State.parserReset_cbSeen (s : State) : (s.parserReset).cbSeen = s.cbSeen := by
  unfold State.parserReset; split <;> rfl
@[simp] theorem State.parserReset_rxaSt (s : State) : (s.parserReset).rxaSt = .idle := by
  unfold State.parserReset; split <;> rfl
@[simp] theorem State.parserReset_rxaRem (s : State) : (s.parserReset).rxaRem = s.rxaRem := by
  unfold State.parserReset; split <;> rfl
@[simp] theorem State.parserReset_rxaCb (s : State) : (s.parserReset).rxaCb = s.rxaCb := by
  unfold State.parserReset; split <;> rfl
@[simp] theorem State.parserReset_rxRing (s : State) : (s.parserReset).rxRing = s.rxRing.abortWrite := by
  unfold State.parserReset; split <;> rfl
@[simp] theorem State.parserReset_txRing (s : State) : (s.parserReset).txRing = s.txRing := by
  unfold State.parserReset; split <;> rfl
@[simp] theorem State.parserReset_txActive (s : State) : (s.parserReset).txActive = s.txActive := by
  unfold State.parserReset; split <;> rfl
@[simp] theorem State.parserReset_txBuf (s : State) : (s.parserReset).txBuf = s.txBuf := by
  unfold State.parserReset; split <;> rfl
@[simp] theorem State.parserReset_txLen (s : State) : (s.parserReset).txLen = s.txLen := by
  unfold State.parserReset; split <;> rfl
@[simp] theorem State.parserReset_txIdx (s : State) : (s.parserReset).txIdx = s.txIdx := by
  unfold State.parserReset; split <;> rfl
@[simp] theorem State.parserReset_txMark0 (s : State) : (s.parserReset).txMark0 = s.txMark0 := by
  unfold State.parserReset; split <;> rfl
@[simp] theorem State.parserReset_txOpensWin (s : State) : (s.parserReset).txOpensWin = s.txOpensWin := by
  unfold State.parserReset; split <;> rfl
@[simp] theorem State.parserReset_slots (s : State) : (s.parserReset).slots = s.slots := by
  unfold State.parserReset; split <;> rfl
@[simp] theorem State.parserReset_pendInfo (s : State) : (s.parserReset).pendInfo = s.pendInfo := by
  unfold State.parserReset; split <;> rfl
@[simp] theorem State.parserReset_pendInfoAddr (s : State) : (s.parserReset).pendInfoAddr = s.pendInfoAddr := by
  unfold State.parserReset; split <;> rfl
@[simp] theorem State.parserReset_pendInfoSeq (s : State) : (s.parserReset).pendInfoSeq = s.pendInfoSeq := by
  unfold State.parserReset; split <;> rfl
@[simp] theorem State.parserReset_pendFunc (s : State) : (s.parserReset).pendFunc = s.pendFunc := by
  unfold State.parserReset; split <;> rfl
@[simp] theorem State.parserReset_pendFuncAddr (s : State) : (s.parserReset).pendFuncAddr = s.pendFuncAddr := by
  unfold State.parserReset; split <;> rfl
@[simp] theorem State.parserReset_pendFuncSeq (s : State) : (s.parserReset).pendFuncSeq = s.pendFuncSeq := by
  unfold State.parserReset; split <;> rfl
@[simp] theorem State.parserReset_power (s : State) : (s.parserReset).power = s.power := by
  unfold State.parserReset; split <;> rfl
@[simp] theorem State.parserReset_lastCvValid (s : State) : (s.parserReset).lastCvValid = s.lastCvValid := by
  unfold State.parserReset; split <;> rfl
@[simp] theorem State.parserReset_lastCvIdx (s : State) : (s.parserReset).lastCvIdx = s.lastCvIdx := by
  unfold State.parserReset; split <;> rfl
@[simp] theorem State.parserReset_lastCvVal (s : State) : (s.parserReset).lastCvVal = s.lastCvVal := by
  unfold State.parserReset; split <;> rfl
@[simp] theorem State.parserReset_now (s : State) : (s.parserReset).now = s.now := by
  unfold State.parserReset; split <;> rfl
@[simp] theorem State.parserReset_inputs (s : State) : (s.parserReset).inputs = s.inputs := by
  unfold State.parserReset; split <;> rfl
@[simp] theorem State.parserReset_lagDraws (s : State) : (s.parserReset).lagDraws = s.lagDraws := by
  unfold State.parserReset; split <;> rfl

/-! ### `closeWindow` -/

@[simp] theorem State.closeWindow_params (s : State) : (s.closeWindow).params = s.params := by
  unfold State.closeWindow; simp
@[simp] theorem State.closeWindow_setupDone (s : State) : (s.closeWindow).setupDone = s.setupDone := by
  unfold State.closeWindow; simp
@[simp] theorem State.closeWindow_myAddr (s : State) : (s.closeWindow).myAddr = s.myAddr := by
  unfold State.closeWindow; simp
@[simp] theorem State.closeWindow_auto (s : State) : (s.closeWindow).auto = s.auto := by
  unfold State.closeWindow; simp
@[simp] theorem State.closeWindow_stepsDef (s : State) : (s.closeWindow).stepsDef = s.stepsDef := by
  unfold State.closeWindow; simp
@[simp] theorem State.closeWindow_notifyEn (s : State) : (s.closeWindow).notifyEn = s.notifyEn := by
  unfold State.closeWindow; simp
@[simp] theorem State.closeWindow_role (s : State) : (s.closeWindow).role = s.role := by
  unfold State.closeWindow; simp
@[simp] theorem State.closeWindow_pollAddr (s : State) : (s.closeWindow).pollAddr = s.pollAddr := by
  unfold State.closeWindow; simp
@[simp] theorem State.closeWindow_callByte (s : State) : (s.closeWindow).callByte = s.callByte := by
  unfold State.closeWindow; simp
@[simp] theorem State.closeWindow_missCnt (s : State) : (s.closeWindow).missCnt = s.missCnt := by
  unfold State.closeWindow; simp
@[simp] theorem State.closeWindow_winOpen (s : State) : (s.closeWindow).winOpen = false := by
  unfold State.closeWindow; simp
@[simp] theorem State.closeWindow_winT0 (s : State) : (s.closeWindow).winT0 = s.winT0 := by
  unfold State.closeWindow; simp
@[simp] theorem State.closeWindow_oppSeq (s : State) : (s.closeWindow).oppSeq = s.oppSeq := by
  unfold State.closeWindow; simp
@[simp] theorem State.closeWindow_cbSeen (s : State) : (s.closeWindow).cbSeen = s.cbSeen := by
  unfold State.closeWindow; simp
@[simp] theorem State.closeWindow_rxaSt (s : State) : (s.closeWindow).rxaSt = .idle := by
  unfold State.closeWindow; simp
@[simp] theorem State.closeWindow_rxaRem (s : State) : (s.closeWindow).rxaRem = s.rxaRem := by
  unfold State.closeWindow; simp
@[simp] theorem State.closeWindow_rxaCb (s : State) : (s.closeWindow).rxaCb = s.rxaCb := by
  unfold State.closeWindow; simp
@[simp] theorem State.closeWindow_rxRing (s : State) : (s.closeWindow).rxRing = s.rxRing.abortWrite := by
  unfold State.closeWindow; simp
@[simp] theorem State.closeWindow_txRing (s : State) : (s.closeWindow).txRing = s.txRing := by
  unfold State.closeWindow; simp
@[simp] theorem State.closeWindow_txActive (s : State) : (s.closeWindow).txActive = s.txActive := by
  unfold State.closeWindow; simp
@[simp] theorem State.closeWindow_txBuf (s : State) : (s.closeWindow).txBuf = s.txBuf := by
  unfold State.closeWindow; simp
@[simp] theorem State.closeWindow_txLen (s : State) : (s.closeWindow).txLen = s.txLen := by
  unfold State.closeWindow; simp
@[simp] theorem State.closeWindow_txIdx (s : State) : (s.closeWindow).txIdx = s.txIdx := by
  unfold State.closeWindow; simp
@[simp] theorem State.closeWindow_txMark0 (s : State) : (s.closeWindow).txMark0 = s.txMark0 := by
  unfold State.closeWindow; simp
@[simp] theorem State.closeWindow_txOpensWin (s : State) : (s.closeWindow).txOpensWin = s.txOpensWin := by
  unfold State.closeWindow; simp
@[simp] theorem State.closeWindow_slots (s : State) : (s.closeWindow).slots = s.slots := by
  unfold State.closeWindow; simp
@[simp] theorem State.closeWindow_pendInfo (s : State) : (s.closeWindow).pendInfo = s.pendInfo := by
  unfold State.closeWindow; simp
@[simp] theorem State.closeWindow_pendInfoAddr (s : State) : (s.closeWindow).pendInfoAddr = s.pendInfoAddr := by
  unfold State.closeWindow; simp
@[simp] theorem State.closeWindow_pendInfoSeq (s : State) : (s.closeWindow).pendInfoSeq = s.pendInfoSeq := by
  unfold State.closeWindow; simp
@[simp] theorem State.closeWindow_pendFunc (s : State) : (s.closeWindow).pendFunc = s.pendFunc := by
  unfold State.closeWindow; simp
@[simp] theorem State.closeWindow_pendFuncAddr (s : State) : (s.closeWindow).pendFuncAddr = s.pendFuncAddr := by
  unfold State.closeWindow; simp
@[simp] theorem State.closeWindow_pendFuncSeq (s : State) : (s.closeWindow).pendFuncSeq = s.pendFuncSeq := by
  unfold State.closeWindow; simp
@[simp] theorem State.closeWindow_power (s : State) : (s.closeWindow).power = s.power := by
  unfold State.closeWindow; simp
@[simp] theorem State.closeWindow_lastCvValid (s : State) : (s.closeWindow).lastCvValid = s.lastCvValid := by
  unfold State.closeWindow; simp
@[simp] theorem State.closeWindow_lastCvIdx (s : State) : (s.closeWindow).lastCvIdx = s.lastCvIdx := by
  unfold State.closeWindow; simp
@[simp] theorem State.closeWindow_lastCvVal (s : State) : (s.closeWindow).lastCvVal = s.lastCvVal := by
  unfold State.closeWindow; simp
@[simp] theorem State.closeWindow_now (s : State) : (s.closeWindow).now = s.now := by
  unfold State.closeWindow; simp
@[simp] theorem State.closeWindow_inputs (s : State) : (s.closeWindow).inputs = s.inputs := by
  unfold State.closeWindow; simp
@[simp] theorem State.closeWindow_lagDraws (s : State) : (s.closeWindow).lagDraws = s.lagDraws := by
  unfold State.closeWindow; simp

/-! ### `clearInfo` -/

@[simp] theorem State.clearInfo_params (s : State) (loco : LocoAddr) : (s.clearInfo loco).params = s.params := by
  unfold State.clearInfo; split <;> rfl
@[simp] theorem State.clearInfo_setupDone (s : State) (loco : LocoAddr) : (s.clearInfo loco).setupDone = s.setupDone := by
  unfold State.clearInfo; split <;> rfl
@[simp] theorem State.clearInfo_myAddr (s : State) (loco : LocoAddr) : (s.clearInfo loco).myAddr = s.myAddr := by
  unfold State.clearInfo; split <;> rfl
@[simp] theorem State.clearInfo_auto (s : State) (loco : LocoAddr) : (s.clearInfo loco).auto = s.auto := by
  unfold State.clearInfo; split <;> rfl
@[simp] theorem State.clearInfo_stepsDef (s : State) (loco : LocoAddr) : (s.clearInfo loco).stepsDef = s.stepsDef := by
  unfold State.clearInfo; split <;> rfl
@[simp] theorem State.clearInfo_notifyEn (s : State) (loco : LocoAddr) : (s.clearInfo loco).notifyEn = s.notifyEn := by
  unfold State.clearInfo; split <;> rfl
@[simp] theorem State.clearInfo_role (s : State) (loco : LocoAddr) : (s.clearInfo loco).role = s.role := by
  unfold State.clearInfo; split <;> rfl
@[simp] theorem State.clearInfo_pollAddr (s : State) (loco : LocoAddr) : (s.clearInfo loco).pollAddr = s.pollAddr := by
  unfold State.clearInfo; split <;> rfl
@[simp] theorem State.clearInfo_callByte (s : State) (loco : LocoAddr) : (s.clearInfo loco).callByte = s.callByte := by
  unfold State.clearInfo; split <;> rfl
@[simp] theorem State.clearInfo_missCnt (s : State) (loco : LocoAddr) : (s.clearInfo loco).missCnt = s.missCnt := by
  unfold State.clearInfo; split <;> rfl
@[simp] theorem State.clearInfo_winOpen (s : State) (loco : LocoAddr) : (s.clearInfo loco).winOpen = s.winOpen := by
  unfold State.clearInfo; split <;> rfl
@[simp] theorem State.clearInfo_winT0 (s : State) (loco : LocoAddr) : (s.clearInfo loco).winT0 = s.winT0 := by
  unfold State.clearInfo; split <;> rfl
@[simp] theorem State.clearInfo_oppSeq (s : State) (loco : LocoAddr) : (s.clearInfo loco).oppSeq = s.oppSeq := by
  unfold State.clearInfo; split <;> rfl
@[simp] theorem State.clearInfo_cbSeen (s : State) (loco : LocoAddr) : (s.clearInfo loco).cbSeen = s.cbSeen := by
  unfold State.clearInfo; split <;> rfl
@[simp] theorem State.clearInfo_rxaSt (s : State) (loco : LocoAddr) : (s.clearInfo loco).rxaSt = s.rxaSt := by
  unfold State.clearInfo; split <;> rfl
@[simp] theorem State.clearInfo_rxaRem (s : State) (loco : LocoAddr) : (s.clearInfo loco).rxaRem = s.rxaRem := by
  unfold State.clearInfo; split <;> rfl
@[simp] theorem State.clearInfo_rxaCb (s : State) (loco : LocoAddr) : (s.clearInfo loco).rxaCb = s.rxaCb := by
  unfold State.clearInfo; split <;> rfl
@[simp] theorem State.clearInfo_rxRing (s : State) (loco : LocoAddr) : (s.clearInfo loco).rxRing = s.rxRing := by
  unfold State.clearInfo; split <;> rfl
@[simp] theorem State.clearInfo_txRing (s : State) (loco : LocoAddr) : (s.clearInfo loco).txRing = s.txRing := by
  unfold State.clearInfo; split <;> rfl
@[simp] theorem State.clearInfo_txActive (s : State) (loco : LocoAddr) : (s.clearInfo loco).txActive = s.txActive := by
  unfold State.clearInfo; split <;> rfl
@[simp] theorem State.clearInfo_txBuf (s : State) (loco : LocoAddr) : (s.clearInfo loco).txBuf = s.txBuf := by
  unfold State.clearInfo; split <;> rfl
@[simp] theorem State.clearInfo_txLen (s : State) (loco : LocoAddr) : (s.clearInfo loco).txLen = s.txLen := by
  unfold State.clearInfo; split <;> rfl
@[simp] theorem State.clearInfo_txIdx (s : State) (loco : LocoAddr) : (s.clearInfo loco).txIdx = s.txIdx := by
  unfold State.clearInfo; split <;> rfl
@[simp] theorem State.clearInfo_txMark0 (s : State) (loco : LocoAddr) : (s.clearInfo loco).txMark0 = s.txMark0 := by
  unfold State.clearInfo; split <;> rfl
@[simp] theorem State.clearInfo_txOpensWin (s : State) (loco : LocoAddr) : (s.clearInfo loco).txOpensWin = s.txOpensWin := by
  unfold State.clearInfo; split <;> rfl
@[simp] theorem State.clearInfo_slots (s : State) (loco : LocoAddr) : (s.clearInfo loco).slots = s.slots := by
  unfold State.clearInfo; split <;> rfl
@[simp] theorem State.clearInfo_pendInfoAddr (s : State) (loco : LocoAddr) : (s.clearInfo loco).pendInfoAddr = s.pendInfoAddr := by
  unfold State.clearInfo; split <;> rfl
@[simp] theorem State.clearInfo_pendInfoSeq (s : State) (loco : LocoAddr) : (s.clearInfo loco).pendInfoSeq = s.pendInfoSeq := by
  unfold State.clearInfo; split <;> rfl
@[simp] theorem State.clearInfo_pendFunc (s : State) (loco : LocoAddr) : (s.clearInfo loco).pendFunc = s.pendFunc := by
  unfold State.clearInfo; split <;> rfl
@[simp] theorem State.clearInfo_pendFuncAddr (s : State) (loco : LocoAddr) : (s.clearInfo loco).pendFuncAddr = s.pendFuncAddr := by
  unfold State.clearInfo; split <;> rfl
@[simp] theorem State.clearInfo_pendFuncSeq (s : State) (loco : LocoAddr) : (s.clearInfo loco).pendFuncSeq = s.pendFuncSeq := by
  unfold State.clearInfo; split <;> rfl
@[simp] theorem State.clearInfo_power (s : State) (loco : LocoAddr) : (s.clearInfo loco).power = s.power := by
  unfold State.clearInfo; split <;> rfl
@[simp] theorem State.clearInfo_lastCvValid (s : State) (loco : LocoAddr) : (s.clearInfo loco).lastCvValid = s.lastCvValid := by
  unfold State.clearInfo; split <;> rfl
@[simp] theorem State.clearInfo_lastCvIdx (s : State) (loco : LocoAddr) : (s.clearInfo loco).lastCvIdx = s.lastCvIdx := by
  unfold State.clearInfo; split <;> rfl
@[simp] theorem State.clearInfo_lastCvVal (s : State) (loco : LocoAddr) : (s.clearInfo loco).lastCvVal = s.lastCvVal := by
  unfold State.clearInfo; split <;> rfl
@[simp] theorem State.clearInfo_now (s : State) (loco : LocoAddr) : (s.clearInfo loco).now = s.now := by
  unfold State.clearInfo; split <;> rfl
@[simp] theorem State.clearInfo_inputs (s : State) (loco : LocoAddr) : (s.clearInfo loco).inputs = s.inputs := by
  unfold State.clearInfo; split <;> rfl
@[simp] theorem State.clearInfo_out (s : State) (loco : LocoAddr) : (s.clearInfo loco).out = s.out := by
  unfold State.clearInfo; split <;> rfl
@[simp] theorem State.clearInfo_lagDraws (s : State) (loco : LocoAddr) : (s.clearInfo loco).lagDraws = s.lagDraws := by
  unfold State.clearInfo; split <;> rfl

/-! ### `clearFunc` -/

@[simp] theorem State.clearFunc_params (s : State) (loco : LocoAddr) : (s.clearFunc loco).params = s.params := by
  unfold State.clearFunc; split <;> rfl
@[simp] theorem State.clearFunc_setupDone (s : State) (loco : LocoAddr) : (s.clearFunc loco).setupDone = s.setupDone := by
  unfold State.clearFunc; split <;> rfl
@[simp] theorem State.clearFunc_myAddr (s : State) (loco : LocoAddr) : (s.clearFunc loco).myAddr = s.myAddr := by
  unfold State.clearFunc; split <;> rfl
@[simp] theorem State.clearFunc_auto (s : State) (loco : LocoAddr) : (s.clearFunc loco).auto = s.auto := by
  unfold State.clearFunc; split <;> rfl
@[simp] theorem State.clearFunc_stepsDef (s : State) (loco : LocoAddr) : (s.clearFunc loco).stepsDef = s.stepsDef := by
  unfold State.clearFunc; split <;> rfl
@[simp] theorem State.clearFunc_notifyEn (s : State) (loco : LocoAddr) : (s.clearFunc loco).notifyEn = s.notifyEn := by
  unfold State.clearFunc; split <;> rfl
@[simp] theorem State.clearFunc_role (s : State) (loco : LocoAddr) : (s.clearFunc loco).role = s.role := by
  unfold State.clearFunc; split <;> rfl
@[simp] theorem State.clearFunc_pollAddr (s : State) (loco : LocoAddr) : (s.clearFunc loco).pollAddr = s.pollAddr := by
  unfold State.clearFunc; split <;> rfl
@[simp] theorem State.clearFunc_callByte (s : State) (loco : LocoAddr) : (s.clearFunc loco).callByte = s.callByte := by
  unfold State.clearFunc; split <;> rfl
@[simp] theorem State.clearFunc_missCnt (s : State) (loco : LocoAddr) : (s.clearFunc loco).missCnt = s.missCnt := by
  unfold State.clearFunc; split <;> rfl
@[simp] theorem State.clearFunc_winOpen (s : State) (loco : LocoAddr) : (s.clearFunc loco).winOpen = s.winOpen := by
  unfold State.clearFunc; split <;> rfl
@[simp] theorem State.clearFunc_winT0 (s : State) (loco : LocoAddr) : (s.clearFunc loco).winT0 = s.winT0 := by
  unfold State.clearFunc; split <;> rfl
@[simp] theorem State.clearFunc_oppSeq (s : State) (loco : LocoAddr) : (s.clearFunc loco).oppSeq = s.oppSeq := by
  unfold State.clearFunc; split <;> rfl
@[simp] theorem State.clearFunc_cbSeen (s : State) (loco : LocoAddr) : (s.clearFunc loco).cbSeen = s.cbSeen := by
  unfold State.clearFunc; split <;> rfl
@[simp] theorem State.clearFunc_rxaSt (s : State) (loco : LocoAddr) : (s.clearFunc loco).rxaSt = s.rxaSt := by
  unfold State.clearFunc; split <;> rfl
@[simp] theorem State.clearFunc_rxaRem (s : State) (loco : LocoAddr) : (s.clearFunc loco).rxaRem = s.rxaRem := by
  unfold State.clearFunc; split <;> rfl
@[simp] theorem State.clearFunc_rxaCb (s : State) (loco : LocoAddr) : (s.clearFunc loco).rxaCb = s.rxaCb := by
  unfold State.clearFunc; split <;> rfl
@[simp] theorem State.clearFunc_rxRing (s : State) (loco : LocoAddr) : (s.clearFunc loco).rxRing = s.rxRing := by
  unfold State.clearFunc; split <;> rfl
@[simp] theorem State.clearFunc_txRing (s : State) (loco : LocoAddr) : (s.clearFunc loco).txRing = s.txRing := by
  unfold State.clearFunc; split <;> rfl
@[simp] theorem State.clearFunc_txActive (s : State) (loco : LocoAddr) : (s.clearFunc loco).txActive = s.txActive := by
  unfold State.clearFunc; split <;> rfl
@[simp] theorem State.clearFunc_txBuf (s : State) (loco : LocoAddr) : (s.clearFunc loco).txBuf = s.txBuf := by
  unfold State.clearFunc; split <;> rfl
@[simp] theorem State.clearFunc_txLen (s : State) (loco : LocoAddr) : (s.clearFunc loco).txLen = s.txLen := by
  unfold State.clearFunc; split <;> rfl
@[simp] theorem State.clearFunc_txIdx (s : State) (loco : LocoAddr) : (s.clearFunc loco).txIdx = s.txIdx := by
  unfold State.clearFunc; split <;> rfl
@[simp] theorem State.clearFunc_txMark0 (s : State) (loco : LocoAddr) : (s.clearFunc loco).txMark0 = s.txMark0 := by
  unfold State.clearFunc; split <;> rfl
@[simp] theorem State.clearFunc_txOpensWin (s : State) (loco : LocoAddr) : (s.clearFunc loco).txOpensWin = s.txOpensWin := by
  unfold State.clearFunc; split <;> rfl
@[simp] theorem State.clearFunc_slots (s : State) (loco : LocoAddr) : (s.clearFunc loco).slots = s.slots := by
  unfold State.clearFunc; split <;> rfl
@[simp] theorem State.clearFunc_pendInfo (s : State) (loco : LocoAddr) : (s.clearFunc loco).pendInfo = s.pendInfo := by
  unfold State.clearFunc; split <;> rfl
@[simp] theorem State.clearFunc_pendInfoAddr (s : State) (loco : LocoAddr) : (s.clearFunc loco).pendInfoAddr = s.pendInfoAddr := by
  unfold State.clearFunc; split <;> rfl
@[simp] theorem State.clearFunc_pendInfoSeq (s : State) (loco : LocoAddr) : (s.clearFunc loco).pendInfoSeq = s.pendInfoSeq := by
  unfold State.clearFunc; split <;> rfl
@[simp] theorem State.clearFunc_pendFuncAddr (s : State) (loco : LocoAddr) : (s.clearFunc loco).pendFuncAddr = s.pendFuncAddr := by
  unfold State.clearFunc; split <;> rfl
@[simp] theorem State.clearFunc_pendFuncSeq (s : State) (loco : LocoAddr) : (s.clearFunc loco).pendFuncSeq = s.pendFuncSeq := by
  unfold State.clearFunc; split <;> rfl
@[simp] theorem State.clearFunc_power (s : State) (loco : LocoAddr) : (s.clearFunc loco).power = s.power := by
  unfold State.clearFunc; split <;> rfl
@[simp] theorem State.clearFunc_lastCvValid (s : State) (loco : LocoAddr) : (s.clearFunc loco).lastCvValid = s.lastCvValid := by
  unfold State.clearFunc; split <;> rfl
@[simp] theorem State.clearFunc_lastCvIdx (s : State) (loco : LocoAddr) : (s.clearFunc loco).lastCvIdx = s.lastCvIdx := by
  unfold State.clearFunc; split <;> rfl
@[simp] theorem State.clearFunc_lastCvVal (s : State) (loco : LocoAddr) : (s.clearFunc loco).lastCvVal = s.lastCvVal := by
  unfold State.clearFunc; split <;> rfl
@[simp] theorem State.clearFunc_now (s : State) (loco : LocoAddr) : (s.clearFunc loco).now = s.now := by
  unfold State.clearFunc; split <;> rfl
@[simp] theorem State.clearFunc_inputs (s : State) (loco : LocoAddr) : (s.clearFunc loco).inputs = s.inputs := by
  unfold State.clearFunc; split <;> rfl
@[simp] theorem State.clearFunc_out (s : State) (loco : LocoAddr) : (s.clearFunc loco).out = s.out := by
  unfold State.clearFunc; split <;> rfl
@[simp] theorem State.clearFunc_lagDraws (s : State) (loco : LocoAddr) : (s.clearFunc loco).lagDraws = s.lagDraws := by
  unfold State.clearFunc; split <;> rfl

/-! ### `idleStep` -/

@[simp] theorem State.idleStep_params (s : State) : (s.idleStep).params = s.params := rfl
@[simp] theorem State.idleStep_setupDone (s : State) : (s.idleStep).setupDone = s.setupDone := rfl
@[simp] theorem State.idleStep_myAddr (s : State) : (s.idleStep).myAddr = s.myAddr := rfl
@[simp] theorem State.idleStep_auto (s : State) : (s.idleStep).auto = s.auto := rfl
@[simp] theorem State.idleStep_stepsDef (s : State) : (s.idleStep).stepsDef = s.stepsDef := rfl
@[simp] theorem State.idleStep_notifyEn (s : State) : (s.idleStep).notifyEn = s.notifyEn := rfl
@[simp] theorem State.idleStep_role (s : State) : (s.idleStep).role = if s.auto ∧ s.cbSeen then .slaveInit else .master := rfl
@[simp] theorem State.idleStep_pollAddr (s : State) : (s.idleStep).pollAddr = s.pollAddr := rfl
@[simp] theorem State.idleStep_callByte (s : State) : (s.idleStep).callByte = s.callByte := rfl
@[simp] theorem State.idleStep_missCnt (s : State) : (s.idleStep).missCnt = 0 := rfl
@[simp] theorem State.idleStep_winOpen (s : State) : (s.idleStep).winOpen = s.winOpen := rfl
@[simp] theorem State.idleStep_winT0 (s : State) : (s.idleStep).winT0 = s.winT0 := rfl
@[simp] theorem State.idleStep_oppSeq (s : State) : (s.idleStep).oppSeq = s.oppSeq := rfl
@[simp] theorem State.idleStep_cbSeen (s : State) : (s.idleStep).cbSeen = false := rfl
@[simp] theorem State.idleStep_rxaSt (s : State) : (s.idleStep).rxaSt = s.rxaSt := rfl
@[simp] theorem State.idleStep_rxaRem (s : State) : (s.idleStep).rxaRem = s.rxaRem := rfl
@[simp] theorem State.idleStep_rxaCb (s : State) : (s.idleStep).rxaCb = s.rxaCb := rfl
@[simp] theorem State.idleStep_rxRing (s : State) : (s.idleStep).rxRing = s.rxRing := rfl
@[simp] theorem State.idleStep_txRing (s : State) : (s.idleStep).txRing = s.txRing := rfl
@[simp] theorem State.idleStep_txActive (s : State) : (s.idleStep).txActive = s.txActive := rfl
@[simp] theorem State.idleStep_txBuf (s : State) : (s.idleStep).txBuf = s.txBuf := rfl
@[simp] theorem State.idleStep_txLen (s : State) : (s.idleStep).txLen = s.txLen := rfl
@[simp] theorem State.idleStep_txIdx (s : State) : (s.idleStep).txIdx = s.txIdx := rfl
@[simp] theorem State.idleStep_txMark0 (s : State) : (s.idleStep).txMark0 = s.txMark0 := rfl
@[simp] theorem State.idleStep_txOpensWin (s : State) : (s.idleStep).txOpensWin = s.txOpensWin := rfl
@[simp] theorem State.idleStep_slots (s : State) : (s.idleStep).slots = s.slots := rfl
@[simp] theorem State.idleStep_pendInfo (s : State) : (s.idleStep).pendInfo = s.pendInfo := rfl
@[simp] theorem State.idleStep_pendInfoAddr (s : State) : (s.idleStep).pendInfoAddr = s.pendInfoAddr := rfl
@[simp] theorem State.idleStep_pendInfoSeq (s : State) : (s.idleStep).pendInfoSeq = s.pendInfoSeq := rfl
@[simp] theorem State.idleStep_pendFunc (s : State) : (s.idleStep).pendFunc = s.pendFunc := rfl
@[simp] theorem State.idleStep_pendFuncAddr (s : State) : (s.idleStep).pendFuncAddr = s.pendFuncAddr := rfl
@[simp] theorem State.idleStep_pendFuncSeq (s : State) : (s.idleStep).pendFuncSeq = s.pendFuncSeq := rfl
@[simp] theorem State.idleStep_power (s : State) : (s.idleStep).power = s.power := rfl
@[simp] theorem State.idleStep_lastCvValid (s : State) : (s.idleStep).lastCvValid = s.lastCvValid := rfl
@[simp] theorem State.idleStep_lastCvIdx (s : State) : (s.idleStep).lastCvIdx = s.lastCvIdx := rfl
@[simp] theorem State.idleStep_lastCvVal (s : State) : (s.idleStep).lastCvVal = s.lastCvVal := rfl
@[simp] theorem State.idleStep_now (s : State) : (s.idleStep).now = s.now := rfl
@[simp] theorem State.idleStep_inputs (s : State) : (s.idleStep).inputs = s.inputs := rfl
@[simp] theorem State.idleStep_out (s : State) : (s.idleStep).out = s.out := rfl
@[simp] theorem State.idleStep_lagDraws (s : State) : (s.idleStep).lagDraws = s.lagDraws := rfl

/-! ### `abandon` -/

@[simp] theorem State.abandon_params (s : State) : (s.abandon).params = s.params := rfl
@[simp] theorem State.abandon_setupDone (s : State) : (s.abandon).setupDone = s.setupDone := rfl
@[simp] theorem State.abandon_myAddr (s : State) : (s.abandon).myAddr = s.myAddr := rfl
@[simp] theorem State.abandon_auto (s : State) : (s.abandon).auto = s.auto := rfl
@[simp] theorem State.abandon_stepsDef (s : State) : (s.abandon).stepsDef = s.stepsDef := rfl
@[simp] theorem State.abandon_notifyEn (s : State) : (s.abandon).notifyEn = s.notifyEn := rfl
@[simp] theorem State.abandon_role (s : State) : (s.abandon).role = s.role := rfl
@[simp] theorem State.abandon_pollAddr (s : State) : (s.abandon).pollAddr = s.pollAddr := rfl
@[simp] theorem State.abandon_callByte (s : State) : (s.abandon).callByte = s.callByte := rfl
@[simp] theorem State.abandon_missCnt (s : State) : (s.abandon).missCnt = s.missCnt := rfl
@[simp] theorem State.abandon_winOpen (s : State) : (s.abandon).winOpen = s.winOpen := rfl
@[simp] theorem State.abandon_winT0 (s : State) : (s.abandon).winT0 = s.winT0 := rfl
@[simp] theorem State.abandon_oppSeq (s : State) : (s.abandon).oppSeq = s.oppSeq := rfl
@[simp] theorem State.abandon_cbSeen (s : State) : (s.abandon).cbSeen = s.cbSeen := rfl
@[simp] theorem State.abandon_rxaSt (s : State) : (s.abandon).rxaSt = s.rxaSt := rfl
@[simp] theorem State.abandon_rxaRem (s : State) : (s.abandon).rxaRem = s.rxaRem := rfl
@[simp] theorem State.abandon_rxaCb (s : State) : (s.abandon).rxaCb = s.rxaCb := rfl
@[simp] theorem State.abandon_rxRing (s : State) : (s.abandon).rxRing = s.rxRing := rfl
@[simp] theorem State.abandon_txRing (s : State) : (s.abandon).txRing = s.txRing := rfl
@[simp] theorem State.abandon_txActive (s : State) : (s.abandon).txActive = s.txActive := rfl
@[simp] theorem State.abandon_txBuf (s : State) : (s.abandon).txBuf = s.txBuf := rfl
@[simp] theorem State.abandon_txLen (s : State) : (s.abandon).txLen = s.txLen := rfl
@[simp] theorem State.abandon_txIdx (s : State) : (s.abandon).txIdx = s.txIdx := rfl
@[simp] theorem State.abandon_txMark0 (s : State) : (s.abandon).txMark0 = s.txMark0 := rfl
@[simp] theorem State.abandon_txOpensWin (s : State) : (s.abandon).txOpensWin = s.txOpensWin := rfl
@[simp] theorem State.abandon_slots (s : State) : (s.abandon).slots = s.slots := rfl
@[simp] theorem State.abandon_pendInfo (s : State) : (s.abandon).pendInfo = (s.pendInfo && !s.stale s.pendInfoSeq) := rfl
@[simp] theorem State.abandon_pendInfoAddr (s : State) : (s.abandon).pendInfoAddr = s.pendInfoAddr := rfl
@[simp] theorem State.abandon_pendInfoSeq (s : State) : (s.abandon).pendInfoSeq = s.pendInfoSeq := rfl
@[simp] theorem State.abandon_pendFunc (s : State) : (s.abandon).pendFunc = (s.pendFunc && !s.stale s.pendFuncSeq) := rfl
@[simp] theorem State.abandon_pendFuncAddr (s : State) : (s.abandon).pendFuncAddr = s.pendFuncAddr := rfl
@[simp] theorem State.abandon_pendFuncSeq (s : State) : (s.abandon).pendFuncSeq = s.pendFuncSeq := rfl
@[simp] theorem State.abandon_power (s : State) : (s.abandon).power = s.power := rfl
@[simp] theorem State.abandon_lastCvValid (s : State) : (s.abandon).lastCvValid = s.lastCvValid := rfl
@[simp] theorem State.abandon_lastCvIdx (s : State) : (s.abandon).lastCvIdx = s.lastCvIdx := rfl
@[simp] theorem State.abandon_lastCvVal (s : State) : (s.abandon).lastCvVal = s.lastCvVal := rfl
@[simp] theorem State.abandon_now (s : State) : (s.abandon).now = s.now := rfl
@[simp] theorem State.abandon_inputs (s : State) : (s.abandon).inputs = s.inputs := rfl
@[simp] theorem State.abandon_out (s : State) : (s.abandon).out = s.out := rfl
@[simp] theorem State.abandon_lagDraws (s : State) : (s.abandon).lagDraws = s.lagDraws := rfl

/-! ### `limitRaised` -/

@[simp] theorem State.limitRaised_params (s : State) (n : Nat) : (s.limitRaised n).params = s.params := rfl
@[simp] theorem State.limitRaised_setupDone (s : State) (n : Nat) : (s.limitRaised n).setupDone = s.setupDone := rfl
@[simp] theorem State.limitRaised_myAddr (s : State) (n : Nat) : (s.limitRaised n).myAddr = s.myAddr := rfl
@[simp] theorem State.limitRaised_auto (s : State) (n : Nat) : (s.limitRaised n).auto = s.auto := rfl
@[simp] theorem State.limitRaised_stepsDef (s : State) (n : Nat) : (s.limitRaised n).stepsDef = s.stepsDef := rfl
@[simp] theorem State.limitRaised_notifyEn (s : State) (n : Nat) : (s.limitRaised n).notifyEn = s.notifyEn := rfl
@[simp] theorem State.limitRaised_role (s : State) (n : Nat) : (s.limitRaised n).role = s.role := rfl
@[simp] theorem State.limitRaised_pollAddr (s : State) (n : Nat) : (s.limitRaised n).pollAddr = s.pollAddr := rfl
@[simp] theorem State.limitRaised_callByte (s : State) (n : Nat) : (s.limitRaised n).callByte = s.callByte := rfl
@[simp] theorem State.limitRaised_missCnt (s : State) (n : Nat) : (s.limitRaised n).missCnt = s.missCnt := rfl
@[simp] theorem State.limitRaised_winOpen (s : State) (n : Nat) : (s.limitRaised n).winOpen = s.winOpen := rfl
@[simp] theorem State.limitRaised_winT0 (s : State) (n : Nat) : (s.limitRaised n).winT0 = s.winT0 := rfl
@[simp] theorem State.limitRaised_oppSeq (s : State) (n : Nat) : (s.limitRaised n).oppSeq = s.oppSeq := rfl
@[simp] theorem State.limitRaised_cbSeen (s : State) (n : Nat) : (s.limitRaised n).cbSeen = s.cbSeen := rfl
@[simp] theorem State.limitRaised_rxaSt (s : State) (n : Nat) : (s.limitRaised n).rxaSt = s.rxaSt := rfl
@[simp] theorem State.limitRaised_rxaRem (s : State) (n : Nat) : (s.limitRaised n).rxaRem = s.rxaRem := rfl
@[simp] theorem State.limitRaised_rxaCb (s : State) (n : Nat) : (s.limitRaised n).rxaCb = s.rxaCb := rfl
@[simp] theorem State.limitRaised_rxRing (s : State) (n : Nat) : (s.limitRaised n).rxRing = s.rxRing := rfl
@[simp] theorem State.limitRaised_txRing (s : State) (n : Nat) : (s.limitRaised n).txRing = s.txRing := rfl
@[simp] theorem State.limitRaised_txActive (s : State) (n : Nat) : (s.limitRaised n).txActive = s.txActive := rfl
@[simp] theorem State.limitRaised_txBuf (s : State) (n : Nat) : (s.limitRaised n).txBuf = s.txBuf := rfl
@[simp] theorem State.limitRaised_txLen (s : State) (n : Nat) : (s.limitRaised n).txLen = s.txLen := rfl
@[simp] theorem State.limitRaised_txIdx (s : State) (n : Nat) : (s.limitRaised n).txIdx = s.txIdx := rfl
@[simp] theorem State.limitRaised_txMark0 (s : State) (n : Nat) : (s.limitRaised n).txMark0 = s.txMark0 := rfl
@[simp] theorem State.limitRaised_txOpensWin (s : State) (n : Nat) : (s.limitRaised n).txOpensWin = s.txOpensWin := rfl
@[simp] theorem State.limitRaised_slots (s : State) (n : Nat) : (s.limitRaised n).slots = s.slots := rfl
@[simp] theorem State.limitRaised_pendInfo (s : State) (n : Nat) : (s.limitRaised n).pendInfo = s.pendInfo := rfl
@[simp] theorem State.limitRaised_pendInfoAddr (s : State) (n : Nat) : (s.limitRaised n).pendInfoAddr = s.pendInfoAddr := rfl
@[simp] theorem State.limitRaised_pendInfoSeq (s : State) (n : Nat) : (s.limitRaised n).pendInfoSeq = s.pendInfoSeq := rfl
@[simp] theorem State.limitRaised_pendFunc (s : State) (n : Nat) : (s.limitRaised n).pendFunc = s.pendFunc := rfl
@[simp] theorem State.limitRaised_pendFuncAddr (s : State) (n : Nat) : (s.limitRaised n).pendFuncAddr = s.pendFuncAddr := rfl
@[simp] theorem State.limitRaised_pendFuncSeq (s : State) (n : Nat) : (s.limitRaised n).pendFuncSeq = s.pendFuncSeq := rfl
@[simp] theorem State.limitRaised_power (s : State) (n : Nat) : (s.limitRaised n).power = s.power := rfl
@[simp] theorem State.limitRaised_lastCvValid (s : State) (n : Nat) : (s.limitRaised n).lastCvValid = s.lastCvValid := rfl
@[simp] theorem State.limitRaised_lastCvIdx (s : State) (n : Nat) : (s.limitRaised n).lastCvIdx = s.lastCvIdx := rfl
@[simp] theorem State.limitRaised_lastCvVal (s : State) (n : Nat) : (s.limitRaised n).lastCvVal = s.lastCvVal := rfl
@[simp] theorem State.limitRaised_now (s : State) (n : Nat) : (s.limitRaised n).now = s.now := rfl
@[simp] theorem State.limitRaised_inputs (s : State) (n : Nat) : (s.limitRaised n).inputs = s.inputs := rfl
@[simp] theorem State.limitRaised_out (s : State) (n : Nat) : (s.limitRaised n).out = { s.out with raised := s.out.raised.take (n + 2) } := rfl
@[simp] theorem State.limitRaised_lagDraws (s : State) (n : Nat) : (s.limitRaised n).lagDraws = s.lagDraws := rfl

/-! ### `rest` -/

@[simp] theorem State.rest_params (s : State) : (s.rest).params = s.params := rfl
@[simp] theorem State.rest_setupDone (s : State) : (s.rest).setupDone = s.setupDone := rfl
@[simp] theorem State.rest_myAddr (s : State) : (s.rest).myAddr = s.myAddr := rfl
@[simp] theorem State.rest_auto (s : State) : (s.rest).auto = s.auto := rfl
@[simp] theorem State.rest_stepsDef (s : State) : (s.rest).stepsDef = s.stepsDef := rfl
@[simp] theorem State.rest_notifyEn (s : State) : (s.rest).notifyEn = s.notifyEn := rfl
@[simp] theorem State.rest_role (s : State) : (s.rest).role = s.role := rfl
@[simp] theorem State.rest_pollAddr (s : State) : (s.rest).pollAddr = s.pollAddr := rfl
@[simp] theorem State.rest_callByte (s : State) : (s.rest).callByte = s.callByte := rfl
@[simp] theorem State.rest_missCnt (s : State) : (s.rest).missCnt = s.missCnt := rfl
@[simp] theorem State.rest_winOpen (s : State) : (s.rest).winOpen = s.winOpen := rfl
@[simp] theorem State.rest_winT0 (s : State) : (s.rest).winT0 = s.winT0 := rfl
@[simp] theorem State.rest_oppSeq (s : State) : (s.rest).oppSeq = s.oppSeq := rfl
@[simp] theorem State.rest_cbSeen (s : State) : (s.rest).cbSeen = s.cbSeen := rfl
@[simp] theorem State.rest_rxaSt (s : State) : (s.rest).rxaSt = s.rxaSt := rfl
@[simp] theorem State.rest_rxaRem (s : State) : (s.rest).rxaRem = s.rxaRem := rfl
@[simp] theorem State.rest_rxaCb (s : State) : (s.rest).rxaCb = s.rxaCb := rfl
@[simp] theorem State.rest_rxRing (s : State) : (s.rest).rxRing = s.rxRing := rfl
@[simp] theorem State.rest_txRing (s : State) : (s.rest).txRing = s.txRing := rfl
@[simp] theorem State.rest_txActive (s : State) : (s.rest).txActive = s.txActive := rfl
@[simp] theorem State.rest_txBuf (s : State) : (s.rest).txBuf = s.txBuf := rfl
@[simp] theorem State.rest_txLen (s : State) : (s.rest).txLen = s.txLen := rfl
@[simp] theorem State.rest_txIdx (s : State) : (s.rest).txIdx = s.txIdx := rfl
@[simp] theorem State.rest_txMark0 (s : State) : (s.rest).txMark0 = s.txMark0 := rfl
@[simp] theorem State.rest_txOpensWin (s : State) : (s.rest).txOpensWin = s.txOpensWin := rfl
@[simp] theorem State.rest_slots (s : State) : (s.rest).slots = s.slots := rfl
@[simp] theorem State.rest_pendInfo (s : State) : (s.rest).pendInfo = s.pendInfo := rfl
@[simp] theorem State.rest_pendInfoAddr (s : State) : (s.rest).pendInfoAddr = s.pendInfoAddr := rfl
@[simp] theorem State.rest_pendInfoSeq (s : State) : (s.rest).pendInfoSeq = s.pendInfoSeq := rfl
@[simp] theorem State.rest_pendFunc (s : State) : (s.rest).pendFunc = s.pendFunc := rfl
@[simp] theorem State.rest_pendFuncAddr (s : State) : (s.rest).pendFuncAddr = s.pendFuncAddr := rfl
@[simp] theorem State.rest_pendFuncSeq (s : State) : (s.rest).pendFuncSeq = s.pendFuncSeq := rfl
@[simp] theorem State.rest_power (s : State) : (s.rest).power = s.power := rfl
@[simp] theorem State.rest_lastCvValid (s : State) : (s.rest).lastCvValid = s.lastCvValid := rfl
@[simp] theorem State.rest_lastCvIdx (s : State) : (s.rest).lastCvIdx = s.lastCvIdx := rfl
@[simp] theorem State.rest_lastCvVal (s : State) : (s.rest).lastCvVal = s.lastCvVal := rfl
@[simp] theorem State.rest_now (s : State) : (s.rest).now = s.now := rfl
@[simp] theorem State.rest_inputs (s : State) : (s.rest).inputs = [] := rfl
@[simp] theorem State.rest_out (s : State) : (s.rest).out = Outputs.quiet := rfl
@[simp] theorem State.rest_lagDraws (s : State) : (s.rest).lagDraws = s.lagDraws := rfl

/-! ### `push` -/

@[simp] theorem State.push_params (s : State) (e : PortEvent) : (s.push e).params = s.params := rfl
@[simp] theorem State.push_setupDone (s : State) (e : PortEvent) : (s.push e).setupDone = s.setupDone := rfl
@[simp] theorem State.push_myAddr (s : State) (e : PortEvent) : (s.push e).myAddr = s.myAddr := rfl
@[simp] theorem State.push_auto (s : State) (e : PortEvent) : (s.push e).auto = s.auto := rfl
@[simp] theorem State.push_stepsDef (s : State) (e : PortEvent) : (s.push e).stepsDef = s.stepsDef := rfl
@[simp] theorem State.push_notifyEn (s : State) (e : PortEvent) : (s.push e).notifyEn = s.notifyEn := rfl
@[simp] theorem State.push_role (s : State) (e : PortEvent) : (s.push e).role = s.role := rfl
@[simp] theorem State.push_pollAddr (s : State) (e : PortEvent) : (s.push e).pollAddr = s.pollAddr := rfl
@[simp] theorem State.push_callByte (s : State) (e : PortEvent) : (s.push e).callByte = s.callByte := rfl
@[simp] theorem State.push_missCnt (s : State) (e : PortEvent) : (s.push e).missCnt = s.missCnt := rfl
@[simp] theorem State.push_winOpen (s : State) (e : PortEvent) : (s.push e).winOpen = s.winOpen := rfl
@[simp] theorem State.push_winT0 (s : State) (e : PortEvent) : (s.push e).winT0 = s.winT0 := rfl
@[simp] theorem State.push_oppSeq (s : State) (e : PortEvent) : (s.push e).oppSeq = s.oppSeq := rfl
@[simp] theorem State.push_cbSeen (s : State) (e : PortEvent) : (s.push e).cbSeen = s.cbSeen := rfl
@[simp] theorem State.push_rxaSt (s : State) (e : PortEvent) : (s.push e).rxaSt = s.rxaSt := rfl
@[simp] theorem State.push_rxaRem (s : State) (e : PortEvent) : (s.push e).rxaRem = s.rxaRem := rfl
@[simp] theorem State.push_rxaCb (s : State) (e : PortEvent) : (s.push e).rxaCb = s.rxaCb := rfl
@[simp] theorem State.push_rxRing (s : State) (e : PortEvent) : (s.push e).rxRing = s.rxRing := rfl
@[simp] theorem State.push_txRing (s : State) (e : PortEvent) : (s.push e).txRing = s.txRing := rfl
@[simp] theorem State.push_txActive (s : State) (e : PortEvent) : (s.push e).txActive = s.txActive := rfl
@[simp] theorem State.push_txBuf (s : State) (e : PortEvent) : (s.push e).txBuf = s.txBuf := rfl
@[simp] theorem State.push_txLen (s : State) (e : PortEvent) : (s.push e).txLen = s.txLen := rfl
@[simp] theorem State.push_txIdx (s : State) (e : PortEvent) : (s.push e).txIdx = s.txIdx := rfl
@[simp] theorem State.push_txMark0 (s : State) (e : PortEvent) : (s.push e).txMark0 = s.txMark0 := rfl
@[simp] theorem State.push_txOpensWin (s : State) (e : PortEvent) : (s.push e).txOpensWin = s.txOpensWin := rfl
@[simp] theorem State.push_slots (s : State) (e : PortEvent) : (s.push e).slots = s.slots := rfl
@[simp] theorem State.push_pendInfo (s : State) (e : PortEvent) : (s.push e).pendInfo = s.pendInfo := rfl
@[simp] theorem State.push_pendInfoAddr (s : State) (e : PortEvent) : (s.push e).pendInfoAddr = s.pendInfoAddr := rfl
@[simp] theorem State.push_pendInfoSeq (s : State) (e : PortEvent) : (s.push e).pendInfoSeq = s.pendInfoSeq := rfl
@[simp] theorem State.push_pendFunc (s : State) (e : PortEvent) : (s.push e).pendFunc = s.pendFunc := rfl
@[simp] theorem State.push_pendFuncAddr (s : State) (e : PortEvent) : (s.push e).pendFuncAddr = s.pendFuncAddr := rfl
@[simp] theorem State.push_pendFuncSeq (s : State) (e : PortEvent) : (s.push e).pendFuncSeq = s.pendFuncSeq := rfl
@[simp] theorem State.push_power (s : State) (e : PortEvent) : (s.push e).power = s.power := rfl
@[simp] theorem State.push_lastCvValid (s : State) (e : PortEvent) : (s.push e).lastCvValid = s.lastCvValid := rfl
@[simp] theorem State.push_lastCvIdx (s : State) (e : PortEvent) : (s.push e).lastCvIdx = s.lastCvIdx := rfl
@[simp] theorem State.push_lastCvVal (s : State) (e : PortEvent) : (s.push e).lastCvVal = s.lastCvVal := rfl
@[simp] theorem State.push_now (s : State) (e : PortEvent) : (s.push e).now = s.now := rfl
@[simp] theorem State.push_inputs (s : State) (e : PortEvent) : (s.push e).inputs = Instant.single s.now e :: s.inputs := rfl
@[simp] theorem State.push_out (s : State) (e : PortEvent) : (s.push e).out = s.out := rfl
@[simp] theorem State.push_lagDraws (s : State) (e : PortEvent) : (s.push e).lagDraws = s.lagDraws := rfl

/-! ### `setRing .rx` -/

@[simp] theorem State.setRing_rx_params (s : State) (r : Ring) : (s.setRing .rx r).params = s.params := rfl
@[simp] theorem State.setRing_rx_setupDone (s : State) (r : Ring) : (s.setRing .rx r).setupDone = s.setupDone := rfl
@[simp] theorem State.setRing_rx_myAddr (s : State) (r : Ring) : (s.setRing .rx r).myAddr = s.myAddr := rfl
@[simp] theorem State.setRing_rx_auto (s : State) (r : Ring) : (s.setRing .rx r).auto = s.auto := rfl
@[simp] theorem State.setRing_rx_stepsDef (s : State) (r : Ring) : (s.setRing .rx r).stepsDef = s.stepsDef := rfl
@[simp] theorem State.setRing_rx_notifyEn (s : State) (r : Ring) : (s.setRing .rx r).notifyEn = s.notifyEn := rfl
@[simp] theorem State.setRing_rx_role (s : State) (r : Ring) : (s.setRing .rx r).role = s.role := rfl
@[simp] theorem State.setRing_rx_pollAddr (s : State) (r : Ring) : (s.setRing .rx r).pollAddr = s.pollAddr := rfl
@[simp] theorem State.setRing_rx_callByte (s : State) (r : Ring) : (s.setRing .rx r).callByte = s.callByte := rfl
@[simp] theorem State.setRing_rx_missCnt (s : State) (r : Ring) : (s.setRing .rx r).missCnt = s.missCnt := rfl
@[simp] theorem State.setRing_rx_winOpen (s : State) (r : Ring) : (s.setRing .rx r).winOpen = s.winOpen := rfl
@[simp] theorem State.setRing_rx_winT0 (s : State) (r : Ring) : (s.setRing .rx r).winT0 = s.winT0 := rfl
@[simp] theorem State.setRing_rx_oppSeq (s : State) (r : Ring) : (s.setRing .rx r).oppSeq = s.oppSeq := rfl
@[simp] theorem State.setRing_rx_cbSeen (s : State) (r : Ring) : (s.setRing .rx r).cbSeen = s.cbSeen := rfl
@[simp] theorem State.setRing_rx_rxaSt (s : State) (r : Ring) : (s.setRing .rx r).rxaSt = s.rxaSt := rfl
@[simp] theorem State.setRing_rx_rxaRem (s : State) (r : Ring) : (s.setRing .rx r).rxaRem = s.rxaRem := rfl
@[simp] theorem State.setRing_rx_rxaCb (s : State) (r : Ring) : (s.setRing .rx r).rxaCb = s.rxaCb := rfl
@[simp] theorem State.setRing_rx_rxRing (s : State) (r : Ring) : (s.setRing .rx r).rxRing = r := rfl
@[simp] theorem State.setRing_rx_txRing (s : State) (r : Ring) : (s.setRing .rx r).txRing = s.txRing := rfl
@[simp] theorem State.setRing_rx_txActive (s : State) (r : Ring) : (s.setRing .rx r).txActive = s.txActive := rfl
@[simp] theorem State.setRing_rx_txBuf (s : State) (r : Ring) : (s.setRing .rx r).txBuf = s.txBuf := rfl
@[simp] theorem State.setRing_rx_txLen (s : State) (r : Ring) : (s.setRing .rx r).txLen = s.txLen := rfl
@[simp] theorem State.setRing_rx_txIdx (s : State) (r : Ring) : (s.setRing .rx r).txIdx = s.txIdx := rfl
@[simp] theorem State.setRing_rx_txMark0 (s : State) (r : Ring) : (s.setRing .rx r).txMark0 = s.txMark0 := rfl
@[simp] theorem State.setRing_rx_txOpensWin (s : State) (r : Ring) : (s.setRing .rx r).txOpensWin = s.txOpensWin := rfl
@[simp] theorem State.setRing_rx_slots (s : State) (r : Ring) : (s.setRing .rx r).slots = s.slots := rfl
@[simp] theorem State.setRing_rx_pendInfo (s : State) (r : Ring) : (s.setRing .rx r).pendInfo = s.pendInfo := rfl
@[simp] theorem State.setRing_rx_pendInfoAddr (s : State) (r : Ring) : (s.setRing .rx r).pendInfoAddr = s.pendInfoAddr := rfl
@[simp] theorem State.setRing_rx_pendInfoSeq (s : State) (r : Ring) : (s.setRing .rx r).pendInfoSeq = s.pendInfoSeq := rfl
@[simp] theorem State.setRing_rx_pendFunc (s : State) (r : Ring) : (s.setRing .rx r).pendFunc = s.pendFunc := rfl
@[simp] theorem State.setRing_rx_pendFuncAddr (s : State) (r : Ring) : (s.setRing .rx r).pendFuncAddr = s.pendFuncAddr := rfl
@[simp] theorem State.setRing_rx_pendFuncSeq (s : State) (r : Ring) : (s.setRing .rx r).pendFuncSeq = s.pendFuncSeq := rfl
@[simp] theorem State.setRing_rx_power (s : State) (r : Ring) : (s.setRing .rx r).power = s.power := rfl
@[simp] theorem State.setRing_rx_lastCvValid (s : State) (r : Ring) : (s.setRing .rx r).lastCvValid = s.lastCvValid := rfl
@[simp] theorem State.setRing_rx_lastCvIdx (s : State) (r : Ring) : (s.setRing .rx r).lastCvIdx = s.lastCvIdx := rfl
@[simp] theorem State.setRing_rx_lastCvVal (s : State) (r : Ring) : (s.setRing .rx r).lastCvVal = s.lastCvVal := rfl
@[simp] theorem State.setRing_rx_now (s : State) (r : Ring) : (s.setRing .rx r).now = s.now := rfl
@[simp] theorem State.setRing_rx_inputs (s : State) (r : Ring) : (s.setRing .rx r).inputs = s.inputs := rfl
@[simp] theorem State.setRing_rx_out (s : State) (r : Ring) : (s.setRing .rx r).out = s.out := rfl
@[simp] theorem State.setRing_rx_lagDraws (s : State) (r : Ring) : (s.setRing .rx r).lagDraws = s.lagDraws := rfl

/-! ### `setRing .tx` -/

@[simp] theorem State.setRing_tx_params (s : State) (r : Ring) : (s.setRing .tx r).params = s.params := rfl
@[simp] theorem State.setRing_tx_setupDone (s : State) (r : Ring) : (s.setRing .tx r).setupDone = s.setupDone := rfl
@[simp] theorem State.setRing_tx_myAddr (s : State) (r : Ring) : (s.setRing .tx r).myAddr = s.myAddr := rfl
@[simp] theorem State.setRing_tx_auto (s : State) (r : Ring) : (s.setRing .tx r).auto = s.auto := rfl
@[simp] theorem State.setRing_tx_stepsDef (s : State) (r : Ring) : (s.setRing .tx r).stepsDef = s.stepsDef := rfl
@[simp] theorem State.setRing_tx_notifyEn (s : State) (r : Ring) : (s.setRing .tx r).notifyEn = s.notifyEn := rfl
@[simp] theorem State.setRing_tx_role (s : State) (r : Ring) : (s.setRing .tx r).role = s.role := rfl
@[simp] theorem State.setRing_tx_pollAddr (s : State) (r : Ring) : (s.setRing .tx r).pollAddr = s.pollAddr := rfl
@[simp] theorem State.setRing_tx_callByte (s : State) (r : Ring) : (s.setRing .tx r).callByte = s.callByte := rfl
@[simp] theorem State.setRing_tx_missCnt (s : State) (r : Ring) : (s.setRing .tx r).missCnt = s.missCnt := rfl
@[simp] theorem State.setRing_tx_winOpen (s : State) (r : Ring) : (s.setRing .tx r).winOpen = s.winOpen := rfl
@[simp] theorem State.setRing_tx_winT0 (s : State) (r : Ring) : (s.setRing .tx r).winT0 = s.winT0 := rfl
@[simp] theorem State.setRing_tx_oppSeq (s : State) (r : Ring) : (s.setRing .tx r).oppSeq = s.oppSeq := rfl
@[simp] theorem State.setRing_tx_cbSeen (s : State) (r : Ring) : (s.setRing .tx r).cbSeen = s.cbSeen := rfl
@[simp] theorem State.setRing_tx_rxaSt (s : State) (r : Ring) : (s.setRing .tx r).rxaSt = s.rxaSt := rfl
@[simp] theorem State.setRing_tx_rxaRem (s : State) (r : Ring) : (s.setRing .tx r).rxaRem = s.rxaRem := rfl
@[simp] theorem State.setRing_tx_rxaCb (s : State) (r : Ring) : (s.setRing .tx r).rxaCb = s.rxaCb := rfl
@[simp] theorem State.setRing_tx_rxRing (s : State) (r : Ring) : (s.setRing .tx r).rxRing = s.rxRing := rfl
@[simp] theorem State.setRing_tx_txRing (s : State) (r : Ring) : (s.setRing .tx r).txRing = r := rfl
@[simp] theorem State.setRing_tx_txActive (s : State) (r : Ring) : (s.setRing .tx r).txActive = s.txActive := rfl
@[simp] theorem State.setRing_tx_txBuf (s : State) (r : Ring) : (s.setRing .tx r).txBuf = s.txBuf := rfl
@[simp] theorem State.setRing_tx_txLen (s : State) (r : Ring) : (s.setRing .tx r).txLen = s.txLen := rfl
@[simp] theorem State.setRing_tx_txIdx (s : State) (r : Ring) : (s.setRing .tx r).txIdx = s.txIdx := rfl
@[simp] theorem State.setRing_tx_txMark0 (s : State) (r : Ring) : (s.setRing .tx r).txMark0 = s.txMark0 := rfl
@[simp] theorem State.setRing_tx_txOpensWin (s : State) (r : Ring) : (s.setRing .tx r).txOpensWin = s.txOpensWin := rfl
@[simp] theorem State.setRing_tx_slots (s : State) (r : Ring) : (s.setRing .tx r).slots = s.slots := rfl
@[simp] theorem State.setRing_tx_pendInfo (s : State) (r : Ring) : (s.setRing .tx r).pendInfo = s.pendInfo := rfl
@[simp] theorem State.setRing_tx_pendInfoAddr (s : State) (r : Ring) : (s.setRing .tx r).pendInfoAddr = s.pendInfoAddr := rfl
@[simp] theorem State.setRing_tx_pendInfoSeq (s : State) (r : Ring) : (s.setRing .tx r).pendInfoSeq = s.pendInfoSeq := rfl
@[simp] theorem State.setRing_tx_pendFunc (s : State) (r : Ring) : (s.setRing .tx r).pendFunc = s.pendFunc := rfl
@[simp] theorem State.setRing_tx_pendFuncAddr (s : State) (r : Ring) : (s.setRing .tx r).pendFuncAddr = s.pendFuncAddr := rfl
@[simp] theorem State.setRing_tx_pendFuncSeq (s : State) (r : Ring) : (s.setRing .tx r).pendFuncSeq = s.pendFuncSeq := rfl
@[simp] theorem State.setRing_tx_power (s : State) (r : Ring) : (s.setRing .tx r).power = s.power := rfl
@[simp] theorem State.setRing_tx_lastCvValid (s : State) (r : Ring) : (s.setRing .tx r).lastCvValid = s.lastCvValid := rfl
@[simp] theorem State.setRing_tx_lastCvIdx (s : State) (r : Ring) : (s.setRing .tx r).lastCvIdx = s.lastCvIdx := rfl
@[simp] theorem State.setRing_tx_lastCvVal (s : State) (r : Ring) : (s.setRing .tx r).lastCvVal = s.lastCvVal := rfl
@[simp] theorem State.setRing_tx_now (s : State) (r : Ring) : (s.setRing .tx r).now = s.now := rfl
@[simp] theorem State.setRing_tx_inputs (s : State) (r : Ring) : (s.setRing .tx r).inputs = s.inputs := rfl
@[simp] theorem State.setRing_tx_out (s : State) (r : Ring) : (s.setRing .tx r).out = s.out := rfl
@[simp] theorem State.setRing_tx_lagDraws (s : State) (r : Ring) : (s.setRing .tx r).lagDraws = s.lagDraws := rfl

end Sys2Proof.Machine
end

