-- ==== Sys2Proof/Laws/Shared.lean ====
section
/-! SUPPORT. What each shared operation of Machine/Ops.lean and Machine/Poll.lean does, said once. -/

namespace Sys2Proof.Machine

/-! ### Raising, notifying, answering -/

theorem State.notify_eq (s : State) (n : Notification) : s.notify n = s.told (s.heard n.kind n) := by
  unfold State.notify State.heard
  split
  · rfl
  · simp only [State.told, List.append_nil]

theorem State.raise_eq (s : State) (e : ErrCond) : s.raise e = s.blames [e] := rfl

theorem State.respond_eq (s : State) (st : Status) (v : Byte) : s.respond st v = s.answered st v := rfl

theorem State.failCmd_eTxFull (s : State) (v : Byte) : s.failCmd .eTxFull v = s.rejected .eTxFull v .txFull := rfl
theorem State.failCmd_ePending (s : State) (v : Byte) : s.failCmd .ePending v = s.rejected .ePending v .pending := rfl
theorem State.failCmd_eBusy (s : State) (v : Byte) : s.failCmd .eBusy v = s.rejected .eBusy v .busy := rfl
theorem State.failCmd_eBadArg (s : State) (v : Byte) : s.failCmd .eBadArg v = s.rejected .eBadArg v .badArg := rfl
theorem State.failCmd_eNotSetup (s : State) (v : Byte) :
    s.failCmd .eNotSetup v = s.rejected .eNotSetup v .notSetup := rfl

theorem State.gated_setup {s k : State} (h : s.setupDone = true) : s.gated k = k := by simp [State.gated, h]

theorem State.gated_unset {s k : State} (h : s.setupDone = false) :
    s.gated k = s.rejected .eNotSetup 0 .notSetup := by simp [State.gated, h]; rfl

/-! ### Parser, window, transmit engine -/

theorem State.parserReset_eq (s : State) : s.parserReset = s.cut := by
  unfold State.parserReset
  split <;> simp [*, State.raise, Ring.abortWrite]

theorem State.closeWindow_eq (s : State) : s.closeWindow = { s with winOpen := false }.cut :=
  State.parserReset_eq _

/-- `start_tx` of at most ten bytes on a ten-byte buffer. -/
theorem State.startTx_eq {s : State} {bs : List Byte} (hb : s.txBuf.length = 10) (h : bs.length ≤ 10) (m o : Bool) :
    s.startTx bs m o = s.loaded bs m o := by
  simp only [State.startTx, Config.msgMax]
  rw [List.take_of_length_le]
  simp; omega

theorem State.startTx_buffer {s : State} (hb : s.txBuf.length = 10) (bs : List Byte) (m o : Bool) :
    (s.startTx bs m o).txBuf.length = 10 := by
  simp [Config.msgMax]; omega

/-- A data byte in the state HEADER: framing failure, overflow, or the body begins. -/
theorem State.parse_header {s : State} (b : Byte) (h : s.rxaSt = .header) :
    (7 < dataCount b ∧ s.parse b = { s.raise .framingLength with rxaSt := .skip }) ∨
    (dataCount b ≤ 7 ∧ s.rxFull = true ∧ s.parse b = { s.raise .rxOverflow with rxaSt := .skip }) ∨
    (dataCount b ≤ 7 ∧ s.rxFull = false ∧
      s.parse b = { s with
        rxRing := Ring.appendAll s.params.cap { s.rxRing with curOpen := true, curPos := 0 } [s.rxaCb, b]
        rxaRem := BitVec.ofNat 4 (dataCount b + 1), rxaSt := .body }) := by
  unfold State.parse State.parseHeader State.rxFull Config.dataMax
  rw [h]
  by_cases hn : 7 < dataCount b
  · left; simp [hn]
  · right
    cases hf : s.rxRing.isFull s.params.cap with
    | true => left; simp [hn, Ring.beginWrite_none.2 hf]; omega
    | false =>
      right
      refine ⟨by omega, rfl, ?_⟩
      simp [hn, Ring.beginWrite_some.2 ⟨hf, rfl⟩]

/-- A data byte in the state BODY: it is appended; the last one completes the Message. -/
theorem State.parse_body {s : State} (b : Byte) (h : s.rxaSt = .body) :
    (s.rxaRem ≠ 1 ∧ s.parse b =
      { s with rxRing := s.rxRing.appendByte s.params.cap b, rxaRem := s.rxaRem - 1 }) ∨
    (s.rxaRem = 1 ∧ s.parse b =
      { s with rxRing := (s.rxRing.appendByte s.params.cap b).commit s.params.cap s.params.syncLag, rxaRem := 0,
               rxaSt := .idle, winOpen := if s.role = .master then false else s.winOpen }) := by
  unfold State.parse State.parseBody State.completeRx
  rw [h]
  by_cases hr : s.rxaRem = 1
  · right; simp [hr]
  · left
    have : s.rxaRem - 1 ≠ 0 := fun h' => hr (sub_eq_zero.1 h')
    exact ⟨hr, if_neg this⟩

/-- A data byte in the states IDLE and SKIP is dropped. -/
theorem State.parse_dropped {s : State} (b : Byte) (h : s.rxaSt = .idle ∨ s.rxaSt = .skip) : s.parse b = s := by
  unfold State.parse
  rcases h with h | h <;> rw [h]

/-! ### Slot Table (44_slot_table.md R291 to R294) -/

theorem requestBusy_iff {slots : List (Option LocoAddr)} (hl : slots.length = 31) (own : Nat) (loco : LocoAddr) :
    requestBusy slots own loco = true ↔ ∀ t < 31, t ≠ own → slots.getD t none ≠ some loco := by
  simp [requestBusy, heldByOther, hl]

theorem holder_none {slots : List (Option LocoAddr)} (hl : slots.length = 31) {loco : LocoAddr} :
    holder slots loco = none ↔ ∀ t < 31, slots.getD t none ≠ some loco := by
  simp [holder, hl, List.find?_eq_none]

/-- The holder it names does hold the address. -/
theorem holder_some {slots : List (Option LocoAddr)} (hl : slots.length = 31) {loco : LocoAddr} {t : Nat}
    (h : holder slots loco = some t) : t < 31 ∧ slots.getD t none = some loco := by
  have h1 := List.find?_some h
  have h2 := List.mem_of_find?_eq_some h
  simp only [hl, List.mem_range] at h2
  exact ⟨h2, by simpa using h1⟩

theorem markBusy_length (slots : List (Option LocoAddr)) (own : Nat) (loco : LocoAddr) :
    (markBusy slots own loco).length = slots.length := by
  unfold markBusy; split <;> simp

theorem markBusy_own {slots : List (Option LocoAddr)} {own : Nat} (h : own < slots.length) (loco : LocoAddr) :
    (markBusy slots own loco).getD own none = some loco := by
  unfold markBusy
  split
  · assumption
  · simp [List.getD_eq_getElem?_getD, h]

theorem markBusy_other (slots : List (Option LocoAddr)) {own t : Nat} (ht : t ≠ own) (loco : LocoAddr) :
    (markBusy slots own loco).getD t none = slots.getD t none := by
  unfold markBusy
  split
  · rfl
  · simp [List.getD_eq_getElem?_getD, Ne.symm ht]

theorem release_own (slots : List (Option LocoAddr)) (own : Nat) : (release slots own).getD own none = none := by
  by_cases h : own < slots.length <;> simp [release, List.getD_eq_getElem?_getD, h]

theorem release_other (slots : List (Option LocoAddr)) {own t : Nat} (ht : t ≠ own) :
    (release slots own).getD t none = slots.getD t none := by
  simp [release, List.getD_eq_getElem?_getD, Ne.symm ht]

/-- Booking grants, or refuses with the busy notice (43_dispatcher.md R235). -/
theorem State.book_cases (s : State) (dev : DevAddr) (loco : LocoAddr) :
    (dev = 0 ∧ s.book dev loco = (true, s)) ∨
    (dev ≠ 0 ∧ requestBusy s.slots (slotOfDev dev) loco = true ∧
      s.book dev loco = (true, { s with slots := markBusy s.slots (slotOfDev dev) loco })) ∨
    (dev ≠ 0 ∧ requestBusy s.slots (slotOfDev dev) loco = false ∧ holder s.slots loco = none ∧
      s.book dev loco = (false, s.raise .busy)) ∨
    (dev ≠ 0 ∧ requestBusy s.slots (slotOfDev dev) loco = false ∧ ∃ t, holder s.slots loco = some t ∧
      s.book dev loco = (false, (s.raise .busy).reply (mkCb .msg dev) (frameBusy s.params.hdrMap loco t))) := by
  unfold State.book
  by_cases h0 : dev = 0
  · left; simp [h0]
  · right
    cases hb : requestBusy s.slots (slotOfDev dev) loco with
    | true => left; exact ⟨h0, rfl, by rw [if_neg h0]; rfl⟩
    | false =>
      right
      cases hh : holder s.slots loco with
      | none => left; exact ⟨h0, rfl, rfl, by rw [if_neg h0]; rfl⟩
      | some t => right; exact ⟨h0, rfl, t, rfl, by rw [if_neg h0]; rfl⟩

/-! ### The Dispatcher never stops (60_exceptions.md R352) -/

theorem runFrame_next (i : Instr) (s : State) : ∃ t, runFrame i s = .next t := by
  cases i <;> exact ⟨_, rfl⟩

theorem dispatch_next (m : Message) (s : State) : ∃ t, dispatch m s = .next t := by
  unfold dispatch
  cases decodeFrameBy s.params.hdrMap m with
  | ok i => exact runFrame_next i s
  | error e => exact ⟨_, rfl⟩

/-- POLL line 1: nothing, a dispatched Message, or a Message dropped for its checksum. -/
theorem drain_cases (s : State) :
    (s.rxEmpty = true ∧ drain s = .next s) ∨
    (s.rxEmpty = false ∧ ∃ m r, s.rxRing.tryRead s.params.cap s.params.syncLag = some (m, r) ∧
      ((verify m = true ∧ drain s = dispatch m { s with rxRing := r }) ∨
       (verify m = false ∧ drain s = .next ({ s with rxRing := r }.raise .checksum)))) := by
  unfold drain
  rcases s.readRx_cases with ⟨h, h'⟩ | ⟨h, m, r, hr, h'⟩
  · left; simp [h, h']
  · right
    refine ⟨h, m, r, hr, ?_⟩
    cases hv : verify m <;> simp [h', hv]

theorem drain_next (s : State) : ∃ t, drain s = .next t := by
  rcases drain_cases s with ⟨-, h⟩ | ⟨-, m, r, -, ⟨-, h⟩ | ⟨-, h⟩⟩
  · exact ⟨_, h⟩
  · rw [h]; exact dispatch_next _ _
  · exact ⟨_, h⟩

/-- The record cut at two conditions of this step (60_exceptions.md R354). -/
theorem State.limitRaised_append {s : State} {l es : List ErrCond} (h : s.out.raised = l ++ es) :
    s.limitRaised l.length = { s with out := { s.out with raised := l ++ es.take 2 } } := by
  rw [State.limitRaised, h, List.take_length_add_append]

/-- A record that two conditions do not overfill stays. -/
theorem State.limitRaised_eq {s : State} {n : Nat} (h : s.out.raised.length ≤ n + 2) : s.limitRaised n = s := by
  rw [State.limitRaised, List.take_of_length_le h]

/-- POLL of a machine that is set up: drain, role step, abandonment, the answer (42_arbitrator.md R195). -/
theorem execPoll_setup {s u : State} (h : s.setupDone = true) (hd : drain s = .next u) :
    execPoll s = .next ((u.roleStep.abandon.respond .ok 0).limitRaised s.out.raised.length) := by
  simp [execPoll, h, hd, andThen]

/-! ### Frames the CORE builds (30_encoding.md R122) -/

/-- A built frame has a header, at most seven data bytes and a checksum, whatever its template. -/
theorem FrameTemplate.build_length (f : FrameTemplate) (ops : List Byte) :
    2 ≤ (f.build ops).length ∧ (f.build ops).length ≤ 9 := by
  simp only [FrameTemplate.build, encodeFrame, Config.dataMax, List.cons_append, List.length_cons, List.length_append,
    List.length_map, List.length_take, List.length_nil]
  omega

/-- With a call byte it is a Message. -/
theorem FrameTemplate.build_lengthOk (f : FrameTemplate) (ops : List Byte) (cb : Byte) : lengthOk (cb :: f.build ops) := by
  have := f.build_length ops
  simp only [lengthOk, List.length_cons]
  omega

/-! ### Index copies (10_state.md R48) -/

/-- How far behind a copy may be is never further than it was. -/
theorem allowedLag_le (cap lag orig seen : Nat) (past : List Nat) :
    allowedLag cap lag orig seen past ≤ idxDist cap seen orig := by
  unfold allowedLag
  split
  · exact Nat.zero_le _
  · split
    · exact Nat.le_refl _
    · exact Nat.min_le_left _ _

/-- A copy moves onward by some amount that never passes the original, leaves no more than the lag allows, and without
lag is the original. -/
theorem syncCopy_spec {cap lag draw orig seen : Nat} {past : List Nat} (hs : seen < 2 * cap) (ho : orig < 2 * cap) :
    ∃ k ≤ idxDist cap seen orig, syncCopy cap lag draw orig seen past = (seen + k) % (2 * cap) ∧
      idxDist cap seen orig ≤ k + allowedLag cap lag orig seen past ∧
      (lag = 0 → syncCopy cap lag draw orig seen past = orig) := by
  unfold syncCopy
  split
  · rename_i h0
    refine ⟨idxDist cap seen orig, le_refl _, ?_, Nat.le_add_right _ _, fun _ => rfl⟩
    rw [idxDist_eq hs ho]
    split
    · rw [show seen + (orig - seen) = orig by omega, Nat.mod_eq_of_lt ho]
    · rw [show seen + (orig + 2 * cap - seen) = orig + 2 * cap by omega, Nat.add_mod_right, Nat.mod_eq_of_lt ho]
  · rename_i h0
    have hle := allowedLag_le cap lag orig seen past
    have hm : draw % (allowedLag cap lag orig seen past + 1) < allowedLag cap lag orig seen past + 1 :=
      Nat.mod_lt _ (Nat.succ_pos _)
    exact ⟨_, by omega, rfl, by omega, fun h => absurd h h0⟩

end Sys2Proof.Machine
end

