-- ==== Sys2Proof/Tests/Slice0.lean ====
section
/-! SUPPORT. Tests. Expected values are those of spec/95_test_vectors.md and of the encodings of spec/30_encoding.md. -/

namespace Sys2Proof.Tests

open Sys2Proof Sys2Proof.Machine

/-! ### Small states -/

/-- Set up with `MY_ADDR = 3`, every notification enabled, in a role. -/
def on (role : Role) : State :=
  { State.reset with setupDone := true, myAddr := 3, notifyEn := 0x3FFFF, role := role, auto := true }

/-- The same with rings of one Message. -/
def one (role : Role) : State :=
  { State.resetWith { Params.default with cap := 1 } with setupDone := true, myAddr := 3, role := role }

/-- A Message of three bytes. -/
def short : Message := [0xC0, 0x20, 0x20]

/-- A Message of ten bytes. -/
def long : Message := [0xC0, 0x37, 1, 2, 3, 4, 5, 6, 7, 0x37]

/-- Rings of one Message, both full. -/
def full (role : Role) : State := { one role with txRing := Ring.holding 1 long, rxRing := Ring.holding 1 short }

/-- The TX ring holds one Message. -/
def loaded (role : Role) : State := { on role with txRing := Ring.holding 5 long }

/-- The RX ring holds one Message. -/
def received (role : Role) (m : Message) : State := { on role with rxRing := Ring.holding 5 m }

/-- Slot 4 holds the address 1000. -/
def held (role : Role) : State := { on role with slots := (List.replicate 31 none).set 4 (some 1000) }

/-- The parser armed by the broadcast. -/
def armed : State := { on .slave with rxaSt := .header, rxaCb := 0xC0 }

/-- Ten bytes appended to an open cursor. -/
def packed : Ring := long.foldl (fun r b => r.appendByte 5 b) { Ring.empty 5 with curOpen := true }

/-- The state after an operation. -/
def after (i : Instr) (s : State) : State :=
  match exec i s with
  | .next t => t
  | .fault _ => s
  | .refused _ => s

/-- The Messages of the TX ring after an operation. -/
def sent (i : Instr) (s : State) : List Message := (after i s).txQueue

/-! ### WellFormed refuses -/

theorem test_wf_cbPoll_bad_parity : (Instr.cbPoll true 3).WellFormed = false := by decide
theorem test_wf_cbAckreq_bad_parity : (Instr.cbAckreq false 3).WellFormed = false := by decide
theorem test_wf_cbMsg_bad_parity : (Instr.cbMsg false 3).WellFormed = false := by decide
theorem test_wf_cbReserved_bad_parity : (Instr.cbReserved true 0).WellFormed = false := by decide
theorem test_wf_dmUnknown_of_a_known_kind : (Instr.dmUnknown 3 0x21 [0x81]).WellFormed = false := by decide
theorem test_wf_dmUnknown_wrong_length : (Instr.dmUnknown 3 0x35 [0x81]).WellFormed = false := by decide
theorem test_wf_dmUnknown_too_long : (Instr.dmUnknown 3 0x38 [1, 2, 3, 4, 5, 6, 7, 8]).WellFormed = false := by decide
theorem test_wf_mdIgnored_of_a_known_kind : (Instr.mdIgnored 0 0x61 [0x01]).WellFormed = false := by decide
theorem test_wf_mdIgnored_wrong_length : (Instr.mdIgnored 0 0x61 []).WellFormed = false := by decide
theorem test_wf_mdIgnored_too_long : (Instr.mdIgnored 0 0x38 [1, 2, 3, 4, 5, 6, 7, 8]).WellFormed = false := by decide
theorem test_wf_hostReserved_below_19 : (Instr.hostReserved 18).WellFormed = false := by decide
theorem test_wf_rxi_marked : (Instr.rxi true 0x03).WellFormed = false := by decide
theorem test_wf_computeChecksum_too_long :
    (Instr.computeChecksum 0x38 [1, 2, 3, 4, 5, 6, 7, 8]).WellFormed = false := by decide
theorem test_wf_encodeFrame_too_long : (Instr.encodeFrame 0x38 [1, 2, 3, 4, 5, 6, 7, 8]).WellFormed = false := by decide
theorem test_wf_verify_too_short : (Instr.verify [0x03, 0x20]).WellFormed = false := by decide
theorem test_wf_verify_too_long : (Instr.verify (0x00 :: long)).WellFormed = false := by decide
theorem test_wf_enqueue_too_short : (Instr.enqueue [0x03, 0x20]).WellFormed = false := by decide
theorem test_wf_enqueue_too_long : (Instr.enqueue (0x00 :: long)).WellFormed = false := by decide

/-! ### Decoding: words written out from the encodings of spec/30_encoding.md, every constructor that has one -/

/-- A host command's decoding. -/
def host (op : BitVec 5) : Instr := decodeHost { op := op, arg0 := 0x0102, arg1 := 0x83, arg2 := 0x30005 }

theorem test_decode_call_bytes :
    decodePort (.rx true 0b00000011) = .cbPoll false 3 ∧ decodePort (.rx true 0b01011111) = .cbPoll true 31 ∧
    decodePort (.rx true 0b01100101) = .cbAckreq true 5 ∧ decodePort (.rx true 0b11000000) = .cbMsg true 0 ∧
    decodePort (.rx true 0b10100000) = .cbReserved false 0 := by decide

theorem test_decode_events :
    decodePort (.rx false 0xE4) = .rxi false 0xE4 ∧ decodePort .txReady = .txi := by decide

theorem test_decode_dm_short :
    decode (.frame [0x03, 0x20, 0x20]) = .ok (.ackResp 3) ∧
    decode (.frame [0x03, 0x21, 0x10, 0x31]) = .ok (.pwrServiceReq 3) ∧
    decode (.frame [0x05, 0x21, 0x21, 0x00]) = .ok (.devInit 5) ∧
    decode (.frame [0x03, 0x21, 0x80, 0xA1]) = .ok (.pwrOffReq 3) ∧
    decode (.frame [0x03, 0x21, 0x81, 0xA0]) = .ok (.pwrOnReq 3) ∧
    decode (.frame [0x03, 0x22, 0x15, 0x05, 0x32]) = .ok (.cvReadDirect 3 5) ∧
    decode (.frame [0x03, 0x23, 0x16, 0x05, 0x2A, 0x1A]) = .ok (.cvWriteDirect 3 5 0x2A) ∧
    decode (.frame [0x03, 0x42, 0x05, 0x91, 0xD6]) = .ok (.turnoutStatusReq 3 5 true) ∧
    decode (.frame [0x03, 0x52, 0x05, 0x8B, 0xDC]) = .ok (.turnoutCmd 3 21 true true) ∧
    decode (.frame [0x03, 0x80, 0x80]) = .ok (.estopReq 3) := by decide

theorem test_decode_dm_loco :
    decode (.frame [0x03, 0xE3, 0x00, 0xC3, 0xE8, 0xC8]) = .ok (.locoInfoReq 3 1000) ∧
    decode (.frame [0x03, 0xE3, 0x07, 0x00, 0x03, 0xE7]) = .ok (.locoFuncReq 3 3) ∧
    decode (.frame [0x03, 0xE4, 0x10, 0x00, 0x03, 0x8F, 0x78]) = .ok (.locoDrive14 3 3 0x8F) ∧
    decode (.frame [0x03, 0xE4, 0x11, 0x00, 0x03, 0x8F, 0x79]) = .ok (.locoDrive27 3 3 0x8F) ∧
    decode (.frame [0x03, 0xE4, 0x12, 0xC3, 0xE8, 0x95, 0x48]) = .ok (.locoDrive28 3 1000 0x95) ∧
    decode (.frame [0x03, 0xE4, 0x13, 0xC3, 0xE8, 0xA0, 0x7C]) = .ok (.locoDrive128 3 1000 0xA0) := by decide

theorem test_decode_dm_func :
    decode (.frame [0x03, 0xE4, 0x20, 0x00, 0x03, 0x11, 0xD6]) = .ok (.locoFuncG1 3 3 0x11) ∧
    decode (.frame [0x03, 0xE4, 0x21, 0xC3, 0xE8, 0x0A, 0xE4]) = .ok (.locoFuncG2 3 1000 0xA) ∧
    decode (.frame [0x03, 0xE4, 0x22, 0xC3, 0xE8, 0xF5, 0x18]) = .ok (.locoFuncG3 3 1000 0x5) ∧
    decode (.frame [0x03, 0xE4, 0x23, 0xC3, 0xE8, 0x81, 0x6D]) = .ok (.locoFuncG4 3 1000 0x81) ∧
    decode (.frame [0x03, 0xE4, 0x28, 0x00, 0x03, 0x81, 0x4E]) = .ok (.locoFuncG5 3 3 0x81) := by decide

theorem test_decode_dm_pom_and_unknown :
    decode (.frame [0x03, 0xE6, 0x30, 0xC3, 0xE8, 0xEC, 0x04, 0x2A, 0x3F]) = .ok (.pomByte 3 1000 4 0x2A) ∧
    decode (.frame [0x03, 0xE6, 0x30, 0xC3, 0xE8, 0xE9, 0x1C, 0xFB, 0xF3]) = .ok (.pomBit 3 1000 284 3 true) ∧
    decode (.frame [0x03, 0xE6, 0x30, 0xC3, 0xE8, 0xF0, 0x04, 0x2A, 0x23]) =
      .ok (.dmUnknown 3 0xE6 [0x30, 0xC3, 0xE8, 0xF0, 0x04, 0x2A]) ∧
    decode (.frame [0x03, 0x61, 0x01, 0x60]) = .ok (.dmUnknown 3 0x61 [0x01]) := by decide

theorem test_decode_md :
    decode (.frame [0xC0, 0x42, 0x12, 0x34, 0x64]) = .ok (.turnoutFb 0 0x12 0x34) ∧
    decode (.frame [0xC0, 0x52, 0x05, 0x8A, 0xDD]) = .ok (.turnoutCmdM 0 21 false true) ∧
    decode (.frame [0xC0, 0x61, 0x00, 0x61]) = .ok (.bcPwrOff 0) ∧
    decode (.frame [0xC0, 0x61, 0x01, 0x60]) = .ok (.bcPwrOn 0) ∧
    decode (.frame [0xC0, 0x61, 0x02, 0x63]) = .ok (.bcService 0) ∧
    decode (.frame [0xC0, 0x63, 0x14, 0x05, 0x2A, 0x58]) = .ok (.cvResult 0 5 0x2A) ∧
    decode (.frame [0xC0, 0x81, 0x00, 0x81]) = .ok (.bcEstop 0) ∧
    decode (.frame [0xC0, 0x81, 0x01, 0x80]) = .ok (.mdIgnored 0 0x81 [0x01]) := by decide

theorem test_decode_md_loco :
    decode (.frame [0xC5, 0xE4, 0x10, 0x00, 0x03, 0x8F, 0x78]) = .ok (.locoDrive14M 5 3 0x8F) ∧
    decode (.frame [0xC5, 0xE4, 0x11, 0x00, 0x03, 0x8F, 0x79]) = .ok (.locoDrive27M 5 3 0x8F) ∧
    decode (.frame [0xC5, 0xE4, 0x12, 0xC3, 0xE8, 0x95, 0x48]) = .ok (.locoDrive28M 5 1000 0x95) ∧
    decode (.frame [0xC5, 0xE4, 0x13, 0xC3, 0xE8, 0xA0, 0x7C]) = .ok (.locoDrive128M 5 1000 0xA0) ∧
    decode (.frame [0xC5, 0xE4, 0x20, 0x00, 0x03, 0x11, 0xD6]) = .ok (.locoFuncG1M 5 3 0x11) ∧
    decode (.frame [0xC5, 0xE4, 0x21, 0xC3, 0xE8, 0x0A, 0xE4]) = .ok (.locoFuncG2M 5 1000 0xA) ∧
    decode (.frame [0xC5, 0xE4, 0x22, 0xC3, 0xE8, 0xF5, 0x18]) = .ok (.locoFuncG3M 5 1000 0x5) ∧
    decode (.frame [0xC5, 0xE4, 0x23, 0xC3, 0xE8, 0x81, 0x6D]) = .ok (.locoFuncG4M 5 1000 0x81) ∧
    decode (.frame [0xC5, 0xE4, 0x28, 0x00, 0x03, 0x81, 0x4E]) = .ok (.locoFuncG5M 5 3 0x81) := by decide

theorem test_decode_no_direction :
    decode (.frame [0x65, 0x20, 0x20]) = .error (.notADirection .ackreq) := by decide

theorem test_decode_host :
    host 0 = .setup 0x0102 0x83 0x30005 ∧ host 1 = .poll ∧ host 2 = .setPower 0x0102 ∧ host 3 = .getPower ∧
    host 4 = .getRole ∧ host 5 = .locoClaim 0x0102 ∧ host 6 = .locoBusyNote 0x0102 ∧
    host 7 = .pushDrive 0x0102 0x83 0x30005 ∧ host 8 = .pushFunc 0x0102 0x83 0x30005 ∧
    host 9 = .getLocoInfo 0x0102 ∧ host 10 = .getLocoFunc 0x0102 ∧ host 11 = .pushTurnoutStatus 0x0102 ∧
    host 12 = .pushTurnoutCmd 0x0102 0x83 ∧ host 13 = .setCvReadValue 0x0102 0x83 ∧ host 14 = .setCvNack ∧
    host 15 = .setCvNackSc ∧ host 16 = .pushFeedback 0x0102 ∧ host 17 = .releaseSlot 0x0102 ∧
    host 18 = .pendTimeout 0x0102 ∧ host 19 = .hostReserved 19 ∧ host 31 = .hostReserved 31 := by decide

theorem test_table_words :
    decodeTableWord 8 0x07 = some (.pushDrive 0 0 0) ∧ decodeTableWord 8 0xC0 = some (.cbMsg true 0) ∧
    decodeTableWord 40 0x2181000000 = some (.pwrOnReq 0) ∧ decodeTableWord 40 0x6101000000 = some (.bcPwrOn 0) ∧
    decodeTableWord 40 0xE4130003A0 = some (.locoDrive128 0 3 0xA0) := by decide

/-- Decoding an encoded operation, a data byte of each field at a value with high bits. -/
theorem test_round_trip :
    (encode (.pomBit 31 16383 1023 7 true)).map decode = some (.ok (.pomBit 31 16383 1023 7 true)) ∧
    (encode (.turnoutCmd 1 1023 false true)).map decode = some (.ok (.turnoutCmd 1 1023 false true)) := by decide

/-- Tables of `HDR_MAP` other than the default ones move operands, in frames received and in frames built. -/
theorem test_hdrMap_moves_operands :
    decodeFrameBy { defaultHdrMap with dm := [⟨0x33, none, none, .cvWriteDirect, [2, 0]⟩] } [0x03, 0x33, 0x0A, 0x0B, 0x0C, 0x3E] =
      .ok (.cvWriteDirect 3 0x0C 0x0A) ∧
    frameCvResult { defaultHdrMap with
      built := { defaultBuilt with cvResult := ⟨0x73, [.operand 1, .const 0x09, .operand 0]⟩ } } 5 0x2A =
      [0x73, 0x2A, 0x09, 0x05, 0x55] := by decide

/-- A template whose header announces another length is out of range (30_encoding.md R109), and so is a row that reads a
data byte its header does not give (43_dispatcher.md R230). -/
theorem test_hdrMap_range :
    defaultHdrMap.inRange = true ∧
    { defaultHdrMap with built := { defaultBuilt with cvNack := ⟨0x62, [.const 0x13]⟩ } }.inRange = false ∧
    { defaultHdrMap with dm := [⟨0x22, none, none, .cvWriteDirect, [1, 2]⟩] }.inRange = false := by decide

/-- A table word placed and run as the first operation after reset. -/
theorem test_withFetchWord :
    (match step (State.reset.withFetchWord 8 0x04) with | .next t => t.out.cmd | _ => none) = some (.eNotSetup, 0) ∧
    (match step (State.reset.withFetchWord 40 0x2180000000) with | .next t => t.power | _ => .normal) = .off := by decide

/-! ### Operations -/

theorem test_checksum : (after (.computeChecksum 0xE4 [0x13, 0xC3, 0xE8, 0xA0]) (on .idle)).out.op = .byte 0x7C := by decide
theorem test_verify : (after (.verify [0xFF, 0x21, 0x81, 0xA0]) (on .idle)).out.op = .bool true := by decide
theorem test_parity : (after (.callByteParity 0x41) (on .idle)).out.op = .byte 0x41 := by decide
theorem test_encode : (after (.encodeFrame 0x80 []) (on .idle)).out.op = .bytes [0x80, 0x80] := by decide
theorem test_beginWrite : (after (.beginWrite .tx) (on .idle)).txRing.curOpen = true := by decide
theorem test_appendByte_closed : after (.appendByte .rx 1) (on .idle) = on .idle := by decide
theorem test_commit : (after (.commit .rx) { on .idle with rxRing := packed }).rxQueue = [long] := by decide
theorem test_abortWrite : (after (.abortWrite .rx) { on .idle with rxRing := packed }).rxRing.curPos = 0 := by decide
theorem test_tryRead : (after (.tryRead .tx) (loaded .slave)).out.op = .message (some long) := by decide
theorem test_isEmpty : (after (.isEmpty .tx) (loaded .slave)).out.op = .bool false := by decide
theorem test_isFull : (after (.isFull .tx) (full .slave)).out.op = .bool true := by decide
theorem test_enqueue_full : (after (.enqueue short) (full .slave)).txQueue = [long] := by decide
theorem test_enqueue_order : sent (.enqueue short) (loaded .slave) = [long, short] := by decide
theorem test_requestBusy_own : (after (.requestBusy 4 1000) (held .master)).out.op = .bool true := by decide
theorem test_requestBusy_other : (after (.requestBusy 5 1000) (held .master)).out.op = .bool false := by decide
theorem test_markBusy : (after (.markBusy 4 3) (held .master)).slots.getD 4 none = some 3 := by decide
theorem test_release : (after (.release 4) (held .master)).slots.getD 4 none = none := by decide
theorem test_holder : (after (.holder 1000) (held .master)).out.op = .slot (some 4) := by decide

theorem test_cbPoll_opportunity :
    (after (.cbPoll false 3) (loaded .slave)).txBuf.take 9 = long.drop 1 ∧
    (after (.cbPoll false 3) (loaded .slave)).txMark0 = false := by decide
theorem test_cbPoll_bad_parity : (after (.cbPoll true 3) (loaded .slave)).cbSeen = false := by decide
theorem test_cbAckreq : (after (.cbAckreq true 3) (loaded .slave)).txBuf.take 2 = [0x20, 0x20] := by decide
theorem test_cbAckreq_idle : (after (.cbAckreq true 3) (on .idle)).txActive = false := by decide
theorem test_cbMsg_broadcast : (after (.cbMsg true 0) (on .slave)).rxaSt = .header := by decide
theorem test_cbMsg_other : (after (.cbMsg true 3) { on .slave with myAddr := 5 }).rxaSt = .idle := by decide
theorem test_cbReserved_cuts :
    (after (.cbReserved false 0) { on .slave with rxaSt := .body }).out.raised = [.framingTruncated] := by decide
theorem test_rxi_frame :
    (rxiRun [0xE4, 0x13, 0xC3, 0xE8, 0xA0, 0x7C] armed).rxQueue = [[0xC0, 0xE4, 0x13, 0xC3, 0xE8, 0xA0, 0x7C]] := by decide
theorem test_rxi_length : (after (.rxi false 0x48) armed).out.raised = [.framingLength] := by decide
theorem test_txi_mark :
    (after .txi { on .master with txActive := true, txBuf := [0x43], txLen := 1, txMark0 := true }).out.tx =
      some (true, 0x43) := by decide
theorem test_txi_opens_window :
    (after .txi { on .master with txActive := true, txLen := 1, txIdx := 1, txOpensWin := true, now := 12 }).winOpen = true ∧
    (after .txi { on .master with txActive := true, txLen := 1, txIdx := 1, txOpensWin := true, now := 12 }).winT0 = 12 := by
  decide

theorem test_power_requests :
    sent (.pwrOnReq 3) (on .master) = [[0xC0, 0x61, 0x01, 0x60]] ∧ sent (.pwrOffReq 3) (on .master) = [[0xC0, 0x61, 0x00, 0x61]] ∧
    sent (.pwrServiceReq 3) (on .master) = [[0xC0, 0x61, 0x02, 0x63]] ∧
    sent (.estopReq 3) (on .master) = [[0xC0, 0x81, 0x00, 0x81]] := by decide
theorem test_drive_refused :
    sent (.locoDrive128 3 1000 0xA0) (held .master) = [[0xC3, 0xE4, 0x40, 0xC3, 0xE8, 0x04, 0x8B]] ∧
    (after (.locoDrive128 3 1000 0xA0) (held .master)).out.ntf = [] := by decide
theorem test_drive_granted : (after (.locoDrive14 3 1000 0x8F) (on .master)).slots.getD 2 none = some 1000 := by decide
theorem test_unknown : sent (.dmUnknown 3 0x21 [0x24]) (on .master) = [[0xC3, 0x61, 0x82, 0xE3]] := by decide
theorem test_notify_disabled : (after (.cvReadDirect 3 5) { on .master with notifyEn := 0x3EFFF }).out.ntf = [] := by decide
theorem test_cvResult : (after (.cvResult 0 5 0x2A) (on .slave)).lastCvVal = 0x2A := by decide
theorem test_driveM_answers :
    (after (.locoDrive28M 5 3 0x95) { on .slave with pendInfo := true, pendInfoAddr := 3 }).pendInfo = false ∧
    (after (.locoDrive28M 5 4 0x95) { on .slave with pendInfo := true, pendInfoAddr := 3 }).pendInfo = true := by decide
theorem test_bcEstop : (after (.bcEstop 0) (on .slave)).power = .estop := by decide

theorem test_setup : (after (.setup 5 7 0x3FFFF) State.reset).stepsDef = .s128 := by decide
theorem test_setup_range : (after (.setup 32 7 0) State.reset).out.cmd = some (.eBadArg, 0) := by decide
theorem test_poll_drains :
    (after .poll (received .master [0x03, 0x21, 0x81, 0xA0])).out.ntf = [.power .normal] ∧
    (after .poll (received .master [0x03, 0x21, 0x81, 0xA1])).out.raised = [.checksum] := by decide
/-- A takeover cuts a Message: "a truncation plus a later one" (60_exceptions.md R354; assumption 13). -/
theorem test_poll_takeover_cuts :
    (after .poll { on .slave with missCnt := 255, rxaSt := .body }).out.raised = [.framingTruncated, .roleDesync] := by decide
/-- "One step can raise at most two conditions" (60_exceptions.md R354; assumption 13). -/
theorem test_poll_raises_two :
    (after .poll { received .slave [0xC0, 0x20, 0x21] with missCnt := 255, rxaSt := .body }).out.raised =
      [.checksum, .framingTruncated] := by decide
theorem test_poll_next_device : (after .poll { on .master with pollAddr := 31 }).txBuf.take 1 = [0x41] := by decide
theorem test_setPower_master : sent (.setPower 3) (on .master) = [[0xC0, 0x61, 0x00, 0x61]] := by decide
theorem test_setPower_slave : sent (.setPower 0) (on .slave) = [[0x03, 0x21, 0x81, 0xA0]] := by decide
theorem test_getRole : (after .getRole (on .slave)).out.cmd = some (.ok, 3) := by decide
theorem test_getPower : (after .getPower { on .slave with power := .short }).out.cmd = some (.ok, 3) := by decide
theorem test_locoClaim : (after (.locoClaim 1000) (held .master)).out.cmd = some (.eBusy, 4) := by decide
theorem test_locoBusyNote : sent (.locoBusyNote 1000) (held .master) = [[0xC0, 0xE4, 0x40, 0xC3, 0xE8, 0x04, 0x8B]] := by decide
theorem test_pushDrive : sent (.pushDrive 3 0x8F 0) (on .master) = [[0xC0, 0xE4, 0x10, 0x00, 0x03, 0x8F, 0x78]] := by decide
theorem test_pushFunc_masks : sent (.pushFunc 1000 0xF5 3) (on .master) = [[0xC0, 0xE4, 0x22, 0xC3, 0xE8, 0x05, 0xE8]] := by decide
theorem test_getLocoInfo : sent (.getLocoInfo 1000) (on .slave) = [[0x03, 0xE3, 0x00, 0xC3, 0xE8, 0xC8]] := by decide
theorem test_getLocoFunc_pending : (after (.getLocoFunc 3) { on .slave with pendFunc := true }).out.cmd = some (.ePending, 0) := by decide
theorem test_pushTurnoutStatus : sent (.pushTurnoutStatus 0x591) (on .master) = [[0xC0, 0x42, 0x05, 0x91, 0xD6]] := by decide
theorem test_pushTurnoutCmd : sent (.pushTurnoutCmd 21 3) (on .master) = [[0xC0, 0x52, 0x05, 0x8B, 0xDC]] := by decide
theorem test_setCvReadValue : sent (.setCvReadValue 5 0x2A) (on .master) = [[0xC0, 0x63, 0x14, 0x05, 0x2A, 0x58]] := by decide
theorem test_setCvNack : sent .setCvNack (on .master) = [[0xC0, 0x61, 0x13, 0x72]] := by decide
theorem test_setCvNackSc : sent .setCvNackSc (on .master) = [[0xC0, 0x61, 0x12, 0x73]] := by decide
theorem test_pushFeedback : sent (.pushFeedback 0x1234) (on .master) = [[0xC0, 0x42, 0x12, 0x34, 0x64]] := by decide
theorem test_releaseSlot_range : (after (.releaseSlot 31) (on .master)).out.cmd = some (.eBadArg, 0) := by decide
theorem test_pendTimeout : (after (.pendTimeout 1) { on .slave with pendFunc := true }).pendFunc = false := by decide
theorem test_hostReserved : (after (.hostReserved 25) State.reset).out.cmd = some (.eBadArg, 0) := by decide

/-! ### Witnesses: for each obligation with hypotheses, states and operands that meet them, each clause at a boundary -/

/-- A drained RX ring and a TX ring of one Message of a capacity of one. -/
def part (role : Role) : State := { one role with txRing := Ring.holding 1 long }

theorem witness_DecodeOfEncode :
    (Instr.pomBit 31 16383 1023 7 true).WellFormed = true ∧ (encode (.pomBit 31 16383 1023 7 true)).isSome = true ∧
    (Instr.dmUnknown 0 0x37 [1, 2, 3, 4, 5, 6, 7]).WellFormed = true ∧ (Instr.hostReserved 19).WellFormed = true := by
  and_intros <;> decide

theorem witness_CodecLaws :
    [1, 1].length = (encodeFrame 0x20 []).length ∧ xorBytes [1, 1] = 0 ∧ xorBytes [1, 2] ≠ 0 ∧
    1 < (encodeFrame 0x20 []).length ∧ 0 < (encodeFrame 0x20 []).length ∧ 7 < 8 ∧ 1 ≠ 0 := by
  and_intros <;> decide

theorem witness_WrittenWordsDecode : 18 < (19 : BitVec 5).toNat ∧ 18 < (31 : BitVec 5).toNat := by decide

theorem witness_BuiltFramesHaveTheirBytes :
    (on .master).params.hdrMap = defaultHdrMap ∧ (on .master).role = .master ∧ (on .idle).role ≠ .master := by
  and_intros <;> decide

theorem witness_ChecksumVerifyEncode : (1 :: [2, 3]).Perm (3 :: [2, 1]) := by decide

theorem witness_GrayCodeOfIndex : 1 ≤ 1 ∧ 1 < 2 * 1 ∧ 1 ≤ 5 ∧ 9 < 2 * 5 := by
  and_intros <;> decide

theorem witness_EnqueueAppends :
    (one .idle).TxOk ∧ (one .idle).txFull = false ∧ (part .idle).TxOk ∧ (part .idle).txFull = true ∧
    lengthOk short ∧ lengthOk long := by
  and_intros <;> decide

theorem witness_TryReadRemovesOldest :
    (part .idle).TxOk ∧ (part .idle).txEmpty = false ∧ (one .idle).TxOk ∧ (one .idle).txEmpty = true := by
  and_intros <;> decide

theorem witness_RingIsABoundedQueue : (Ring.holding 1 short).Ok 1 0 ∧ long.length ≤ 10 := by
  and_intros <;> decide

theorem witness_CursorOpensAndAborts :
    ((part .idle).ring .tx).isFull 1 = true ∧ ((one .idle).ring .tx).isFull 1 = false := by
  and_intros <;> decide

/-- The open cursor at a position. -/
def packedAt (n : Nat) : Ring := { packed with curPos := n }

theorem witness_AppendAndCommit :
    packed.Ok 5 0 ∧ packed.curOpen = true ∧ packed.curPos = 10 ∧
    (packedAt 9).Ok 5 0 ∧ (Ring.empty 5).Ok 5 0 ∧ (Ring.empty 5).curOpen = false := by
  and_intros <;> decide

theorem witness_RingTests :
    (Ring.empty 1).Ok 1 0 ∧ (Ring.empty 1).contents 1 = [] ∧ (Ring.holding 1 long).Ok 1 0 ∧
    ((Ring.holding 1 long).contents 1).length = 1 ∧ (Ring.holding 1 long).isFull 1 = true := by
  and_intros <;> decide

theorem witness_SlotQueries :
    (held .master).SlotsOk ∧ (held .master).FreeFor 4 1000 ∧ (held .master).slots.getD 4 none = some 1000 ∧ 4 ≠ 5 ∧
    ∀ t < 31, (held .master).slots.getD t none ≠ some 3 := by
  and_intros <;> decide

theorem witness_SlotWrites :
    (held .master).slots.length = 31 ∧ (held .master).slots.getD 4 none = some 1000 ∧
    (held .master).slots.getD 5 none = none ∧ requestBusy (held .master).slots 5 3 = true ∧ (5 : Fin 31) ≠ 4 := by
  and_intros <;> decide

theorem witness_CallByteIgnored :
    State.reset.setupDone = false ∧ { on .slave with txActive := true }.txActive = true ∧
    (on .slave).setupDone = true ∧ (on .slave).txActive = false ∧ cbOk (rawCallByte .poll true 3) = false ∧
    cbOk (rawCallByte .poll false 3) = true ∧ (on .idle).role = .idle ∧ (5 : DevAddr) ≠ (on .slave).myAddr ∧
    cbOk (rawCallByte .poll false 5) = true ∧ cbOk (rawCallByte .poll false 0) = true ∧
    cbOk (rawCallByte .reserved false 0) = true := by
  and_intros <;> decide

theorem witness_PollCallByteAnswered :
    (part .slave).setupDone = true ∧ (part .slave).txActive = false ∧ (part .slave).role = .slave ∧
    (part .slave).myAddr ≠ 0 ∧ cbOk (rawCallByte .poll false (part .slave).myAddr) = true ∧ (part .slave).TxOk ∧
    (part .slave).txBuf.length = 10 ∧ (part .slave).txEmpty = false ∧
    (one .slaveInit).TxOk ∧ (one .slaveInit).txBuf.length = 10 ∧ (one .slaveInit).txEmpty = true := by
  and_intros <;> decide

theorem witness_MsgAndAckreqCallBytes :
    (on .slave).setupDone = true ∧ (on .slave).txActive = false ∧ (on .slave).role = .slave ∧
    cbOk (rawCallByte .msg true 0) = true ∧ cbOk (rawCallByte .msg true 3) = true ∧
    cbOk (rawCallByte .ackreq true 3) = true ∧ (3 : DevAddr) = (on .slave).myAddr ∧ (3 : DevAddr) ≠ 0 ∧
    (on .slave).txBuf.length = 10 := by
  and_intros <;> decide

/-- The parser armed, the RX ring full. -/
def fullArmed : State := { full .slave with rxaSt := .header }

theorem witness_HeaderByte :
    armed.setupDone = true ∧ armed.txActive = false ∧ armed.rxaSt = .header ∧ armed.RxOk ∧ armed.rxFull = false ∧
    dataCount 0x37 = 7 ∧ dataCount 0x38 = 8 ∧ fullArmed.RxOk ∧
    fullArmed.rxFull = true := by
  and_intros <;> decide

/-- A device whose parser expects `k` more bytes, `n` being there. -/
def inBody (k : BitVec 4) (n : Nat) : State := { on .slave with rxaSt := .body, rxaRem := k, rxRing := packedAt n }

theorem witness_BodyByte :
    (on .slave).RxOk ∧ (on .slave).rxaSt = .idle ∧
    (inBody 1 9).RxOk ∧ (inBody 1 9).rxRing.curOpen = true ∧ (1 : BitVec 4) ≠ 2 ∧ (inBody 2 9).RxOk := by
  and_intros <;> decide

theorem witness_FrameReceivedWhole :
    armed.setupDone = true ∧ armed.txActive = false ∧ armed.rxaSt = .header ∧ armed.RxOk ∧ armed.rxFull = false ∧
    [1, 2, 3, 4, 5, 6, 7].length ≤ 7 ∧ dataCount 0x37 = [1, 2, 3, 4, 5, 6, 7].length ∧ dataCount 0x80 = 0 := by
  and_intros <;> decide

/-- A Message of `n` bytes being sent, the next one at `i`. -/
def sending (role : Role) (n i : Nat) : State :=
  { on role with txActive := true, txLen := n, txIdx := i, txOpensWin := true }

theorem witness_TransmitterReady :
    State.reset.setupDone = false ∧ (on .slave).txActive = false ∧ (sending .master 10 9).setupDone = true ∧
    (sending .master 10 9).txIdx < (sending .master 10 9).txLen ∧ (sending .master 10 9).txBuf[9]? = some 0 ∧
    (sending .master 1 1).txLen ≤ (sending .master 1 1).txIdx ∧ (sending .master 1 1).role = .master ∧
    (sending .slave 1 1).role ≠ .master := by
  and_intros <;> decide

theorem witness_TransmissionTakesNPlusOne :
    (sending .slave 10 0).setupDone = true ∧ (sending .slave 10 0).txActive = true ∧ (sending .slave 10 0).txIdx = 0 ∧
    (sending .slave 10 0).txBuf.length = 10 ∧ (sending .slave 10 0).txLen ≤ 10 ∧ (sending .slave 0 0).txLen = 0 := by
  and_intros <;> decide

theorem witness_DevicePowerRequests :
    (one .master).TxOk ∧ (one .master).txFull = false ∧ (part .master).TxOk ∧ (part .master).txFull = true := by
  and_intros <;> decide

theorem witness_FramesWithoutEffect : mdKind 0x37 [1, 2, 3, 4, 5, 6, 7] = .ignored := by decide

theorem witness_PomFramesNotify :
    (0xEF : Byte).extractLsb' 2 6 = 0b111011#6 ∧ (0xE8 : Byte).extractLsb' 2 6 = 0b111010#6 := by
  and_intros <;> decide

theorem witness_DeviceDriveFrames :
    (held .master).TxOk ∧ (held .master).SlotsOk ∧ (held .master).txFull = false ∧ (held .master).FreeFor 4 1000 ∧
    (held .master).slots.getD 4 none = some 1000 ∧ (5 : DevAddr).toNat - 1 = 4 ∧ 4 ≠ (31 : DevAddr).toNat - 1 ∧
    (part .master).TxOk ∧ (part .master).SlotsOk ∧ (part .master).txFull = true := by
  and_intros <;> decide

theorem witness_DeviceFunctionFrames :
    (held .master).TxOk ∧ (held .master).SlotsOk ∧ (held .master).FreeFor 30 3 ∧ (1 : DevAddr) ≠ 0 ∧
    4 ≠ (1 : DevAddr).toNat - 1 := by
  and_intros <;> decide

theorem witness_UnknownDeviceFrame :
    (one .master).TxOk ∧ dmKind 0x37 [1, 2, 3, 4, 5, 6, 7] = .unknown ∧ (one .master).txFull = false ∧
    (part .master).TxOk ∧ (part .master).txFull = true := by
  and_intros <;> decide

theorem witness_MasterDriveFrames :
    { on .slave with pendInfo := true, pendInfoAddr := 16383 }.pendInfo = true ∧ (on .slave).pendInfo = false := by
  and_intros <;> decide

theorem witness_MasterFunctionFrames :
    { on .slave with pendFunc := true, pendFuncAddr := 16383 }.pendFunc = true ∧ (on .slave).pendFunc = false := by
  and_intros <;> decide

theorem witness_DispatchRunsDecodedFrame :
    decodeFrameBy (on .master).params.hdrMap [0x03, 0x20, 0x20] = .ok (.ackResp 3) ∧
    decodeFrameBy (on .master).params.hdrMap [0x65, 0x20, 0x20] = .error (.notADirection .ackreq) ∧
    (on .master).params.hdrMap = State.reset.params.hdrMap := by
  and_intros <;> decide

theorem witness_PollRunsThreeParts :
    State.reset.RxOk ∧ State.reset.setupDone = false ∧ (one .master).RxOk ∧ (one .master).setupDone = true ∧
    (one .master).rxEmpty = true ∧ (full .master).RxOk ∧ (full .master).rxEmpty = false ∧ verify short = true ∧
    (received .master [0xC0, 0x20, 0x21]).RxOk ∧ (received .master [0xC0, 0x20, 0x21]).rxEmpty = false ∧
    verify [0xC0, 0x20, 0x21] = false := by
  and_intros <;> decide

theorem witness_PollInIdleAndSlaveInit :
    { on .idle with cbSeen := true }.auto = true ∧ (on .idle).setupDone = true ∧ (on .idle).rxEmpty = true ∧
    (on .idle).TxOk ∧ (on .idle).cbSeen = false ∧ (on .slaveInit).TxOk ∧ (on .slaveInit).txFull = false ∧
    (on .slaveInit).params.initSeq.length ≤ 8 ∧ (part .slaveInit).TxOk ∧ (part .slaveInit).txFull = true ∧
    (part .slaveInit).rxEmpty = true := by
  and_intros <;> decide

/-- The poll address reached. -/
def atAddr (a : DevAddr) (s : State) : State := { s with pollAddr := a }

/-- A master whose window is open since the time 0, at a time. -/
def waiting (now : Nat) : State := { on .master with winOpen := true, now := now }

theorem witness_PollMasterYieldsOrWaits :
    (on .master).setupDone = true ∧ (on .master).rxEmpty = true ∧ (on .master).auto = true ∧ (on .master).cbSeen = false ∧
    { on .master with cbSeen := true }.cbSeen = true ∧ (sending .master 1 0).txActive = true ∧
    (waiting 99).elapsed (waiting 99).winT0 < (waiting 99).params.tWindow ∧
    (waiting 0).now < 2 ^ (waiting 0).params.timeW ∧ (waiting 0).winT0 < 2 ^ (waiting 0).params.timeW ∧
    (waiting 0).winT0 ≤ (waiting 0).now ∧ { waiting 0 with winT0 := 4294967295 }.winT0 < 2 ^ (waiting 0).params.timeW ∧
    (waiting 0).now < { waiting 0 with winT0 := 4294967295 }.winT0 := by
  and_intros <;> decide

theorem witness_PollMasterPollsNextDevice :
    (waiting 100).setupDone = true ∧ (waiting 100).rxEmpty = true ∧ (waiting 100).role = .master ∧
    (waiting 100).cbSeen = false ∧ (waiting 100).txActive = false ∧ (waiting 100).txBuf.length = 10 ∧
    (waiting 100).params.tWindow ≤ (waiting 100).elapsed (waiting 100).winT0 ∧
    (1 : DevAddr) ≠ (waiting 100).myAddr ∧ (atAddr 31 (on .master)).winOpen = false := by
  and_intros <;> decide

theorem witness_PollMasterSelfSlot :
    (atAddr 2 (on .master)).setupDone = true ∧ (atAddr 2 (on .master)).rxEmpty = true ∧
    (atAddr 2 (on .master)).txBuf.length = 10 ∧ (atAddr 2 (on .master)).TxOk ∧
    (atAddr 2 (on .master)).txEmpty = true ∧
    (3 : DevAddr) = (if 31 ≤ (2 : DevAddr).toNat then 1 else (2 : DevAddr) + 1) ∧
    (atAddr 2 (loaded .master)).TxOk ∧ (atAddr 2 (loaded .master)).txEmpty = false ∧
    (∀ m ∈ (atAddr 2 (loaded .master)).txQueue, lengthOk m) ∧
    (1 : DevAddr) = (if 31 ≤ (31 : DevAddr).toNat then 1 else (31 : DevAddr) + 1) := by
  and_intros <;> decide

/-- A device at a time, `n` missing polls counted. -/
def missing (auto : Bool) (n : BitVec 8) (now : Nat) : State := { on .slave with auto := auto, missCnt := n, now := now }

theorem witness_PollSlaveCountsAndTakesOver :
    (on .slave).setupDone = true ∧ (on .slave).rxEmpty = true ∧ 1 ≤ (on .slave).params.slaveCycleMax ∧
    { on .slave with cbSeen := true }.cbSeen = true ∧
    (missing true 254 99).elapsed 0 < 100 ∧ (missing true 254 99).missCnt.toNat < 255 ∧
    100 ≤ (missing true 253 100).elapsed 0 ∧ min 255 ((missing true 253 100).missCnt.toNat + 1) < 255 ∧
    (missing false 255 100).auto = false ∧ 255 ≤ (missing true 255 99).missCnt.toNat ∧
    255 ≤ min 255 ((missing true 254 100).missCnt.toNat + 1) := by
  and_intros <;> decide

/-- A request recorded one opportunity ago, across the wrap of the count. -/
def asked : State := { on .slave with pendInfo := true, pendInfoSeq := 255, oppSeq := 0 }

theorem witness_PollAbandonsStaleRequests :
    asked.setupDone = true ∧ ∃ t, exec .poll asked = .next t ∧ t.pendInfo = true := ⟨rfl, _, rfl, by decide⟩

theorem witness_RoleTransitions :
    (on .slave).setupDone = true ∧ (∃ t, exec .poll (on .slave) = .next t) ∧ State.reset.setupDone = false ∧
    (∃ t, exec .poll State.reset = .next t) ∧ (1 : BitVec 16).toNat = 1 ∧ (31 : BitVec 16).toNat = 31 ∧
    (∃ t, exec (.setup 31 7 0) State.reset = .next t) ∧ Instr.txi ≠ .poll ∧ (∃ t, exec .txi (on .slave) = .next t) :=
  ⟨rfl, ⟨_, rfl⟩, rfl, ⟨_, rfl⟩, rfl, rfl, ⟨_, rfl⟩, by decide, ⟨_, rfl⟩⟩

theorem witness_SetupConfigures :
    (1 : BitVec 16).toNat = 1 ∧ (31 : BitVec 16).toNat = 31 ∧ (7 : BitVec 8).toNat % 4 = stepsNo .s128 ∧
    (4 : BitVec 8).toNat % 4 = stepsNo .s14 ∧ (0 : BitVec 16).toNat = 0 ∧ 31 < (32 : BitVec 16).toNat := by
  and_intros <;> decide

theorem witness_SetPowerCommand :
    (one .master).setupDone = true ∧ (one .master).TxOk ∧ (one .master).txFull = false ∧ (part .master).TxOk ∧
    (part .master).txFull = true ∧ 4 < (5 : BitVec 16).toNat ∧ (one .slave).TxOk ∧ (one .slave).role ≠ .master ∧
    (part .slave).TxOk ∧ (part .slave).txFull = true := by
  and_intros <;> decide

theorem witness_QueriesReleaseAndTimeout :
    (on .idle).setupDone = true ∧ (on .idle).slots.length = 31 ∧ (30 : BitVec 16).toNat ≤ 30 ∧
    30 < (31 : BitVec 16).toNat ∧ 1 < (2 : BitVec 16).toNat := by
  and_intros <;> decide

theorem witness_ClaimAndBusyNote :
    (held .master).setupDone = true ∧ (held .master).myAddr ≠ 0 ∧ (held .master).SlotsOk ∧ (held .master).TxOk ∧
    16383 < (16384 : BitVec 16).toNat ∧ (16383 : BitVec 16).toNat = (16383 : LocoAddr).toNat ∧
    (held .master).FreeFor ((held .master).myAddr.toNat - 1) 16383 ∧ 4 ≠ (held .master).myAddr.toNat - 1 ∧
    (held .master).slots.getD 4 none = some 1000 ∧ (1000 : BitVec 16).toNat = (1000 : LocoAddr).toNat ∧
    (held .master).txFull = false ∧ ∀ t < 31, (held .master).slots.getD t none ≠ some 16383 := by
  and_intros <;> decide

theorem witness_PushDriveAndFunction :
    (held .master).setupDone = true ∧ (held .master).myAddr ≠ 0 ∧ (held .master).SlotsOk ∧ (held .master).TxOk ∧
    4 < (5 : BitVec 18).toNat ∧ (0 : BitVec 18).toNat = 0 ∧ 5 < (6 : BitVec 18).toNat ∧
    (3 : BitVec 18).toNat = stepsNo .s128 ∧ (4 : BitVec 18).toNat = 4 ∧ (held .master).stepsDef = .s14 ∧
    (5 : BitVec 18).toNat = 5 ∧ (16383 : BitVec 16).toNat = (16383 : LocoAddr).toNat ∧ (held .master).FreeFor 2 16383 ∧
    (held .master).slots.getD 4 none = some 1000 ∧ (held .slave).TxOk ∧ (held .slave).role ≠ .master ∧
    (part .master).TxOk ∧ (part .master).SlotsOk ∧ (part .master).txFull = true := by
  and_intros <;> decide

/-- Both requests outstanding. -/
def asking : State := { one .slave with pendInfo := true, pendFunc := true }

theorem witness_InfoRequestsOneOutstanding :
    (one .slave).setupDone = true ∧ (one .slave).TxOk ∧ 16383 < (16384 : BitVec 16).toNat ∧
    (16383 : BitVec 16).toNat = (16383 : LocoAddr).toNat ∧ (one .slave).pendInfo = false ∧ (one .slave).pendFunc = false ∧
    asking.TxOk ∧ (part .slave).TxOk ∧ (part .slave).txFull = true := by
  and_intros <;> decide

theorem witness_TurnoutFeedbackCvPushes :
    (one .slave).setupDone = true ∧ (one .slave).TxOk ∧ 1023 < (1024 : BitVec 16).toNat ∧
    (1023 : BitVec 16).toNat = (1023 : BitVec 10).toNat ∧ 255 < (256 : BitVec 16).toNat ∧
    (255 : BitVec 16).toNat = (255 : Byte).toNat ∧ (part .slave).TxOk ∧ (part .slave).txFull = true := by
  and_intros <;> decide

theorem witness_CvNackPushes :
    (one .master).setupDone = true ∧ (one .master).TxOk ∧ (one .master).txFull = false ∧ (part .master).TxOk ∧
    (part .master).txFull = true := by
  and_intros <;> decide

theorem witness_FailedCommandsChangeNothing :
    18 < (19 : BitVec 5).toNat ∧ (18 : BitVec 5).toNat ≤ 18 ∧ (18 : BitVec 5) ≠ 0 ∧ State.reset.setupDone = false ∧
    ∃ t, exec .getRole State.reset = .next t := ⟨by decide, by decide, by decide, rfl, _, rfl⟩

/-- One event of each agent, and POLL. -/
def pollCmd : HostCmd := { op := 1, arg0 := 0, arg1 := 0, arg2 := 0 }

theorem witness_StepRunsDecodedOperation :
    nextEvent [Instant.single 7 .txReady] = some (7, .txReady, [{ now := 7, rx := none, txReady := false, cmd := none }]) ∧
    decode (.port .txReady) = .ok .txi ∧
    nextEvent [Instant.single 7 (.rx true 0x03)] =
      some (7, .rx true 0x03, [{ now := 7, rx := none, txReady := false, cmd := none }]) ∧
    decode (.port (.rx true 0x03)) = .ok (.cbPoll false 3) ∧
    nextEvent [Instant.single 7 (.cmd pollCmd)] =
      some (7, .cmd pollCmd, [{ now := 7, rx := none, txReady := false, cmd := none }]) ∧
    decode (.port (.cmd pollCmd)) = .ok .poll ∧ (on .slave).role = .slave ∧ (on .idle).role = .idle ∧
    (on .master).role = .master ∧ (part .slave).txRing.wrSeen < 2 * 1 ∧ (part .slave).txRing.wr < 2 * 1 ∧
    (part .slave).txRing.wrPast = List.replicate (part .slave).params.syncLag (part .slave).txRing.wr ∧
    nextEvent State.reset.inputs = none := by
  and_intros <;> decide

theorem witness_CoincidingEventsInOrder :
    let all : Instant := { now := 7, rx := some (true, 0x03), txReady := true, cmd := some pollCmd }
    let s : Instant → State := fun i => { on .master with inputs := [i] }
    (s all).inputs = all :: [] ∧ (s { all with cmd := none }).inputs = { all with cmd := none } :: [] ∧
    (s { all with txReady := false }).inputs = { all with txReady := false } :: [] ∧
    (s { all with rx := none }).inputs = { all with rx := none } :: [] := ⟨rfl, rfl, rfl, rfl⟩

theorem witness_WritersPerAgent :
    (∃ t, exec (.rxi false 0x20) armed = .next t) ∧ (∃ t, exec .txi (sending .master 1 1) = .next t) ∧
    (∃ t, exec .poll (on .master) = .next t) ∧ (18 : BitVec 5) ≠ 0 ∧ (18 : BitVec 5) ≠ 1 ∧
    (on .idle).role = .idle ∧ (on .slave).role ≠ .master ∧
    ∃ t, exec (decodeHost { op := 18, arg0 := 0, arg1 := 0, arg2 := 0 }) (on .idle) = .next t :=
  ⟨⟨_, rfl⟩, ⟨_, rfl⟩, ⟨_, rfl⟩, by decide, by decide, rfl, by decide, _, rfl⟩

theorem reset_inv : State.reset.Inv := by
  constructor <;> decide

/-- A state of the invariant that is not at rest: a device whose parser is armed takes a byte. -/
theorem witness_EveryStepKeepsInvariant :
    { armed with inputs := [Instant.single 7 (.rx false 0x37)] }.Inv ∧
    ∃ t, step { armed with inputs := [Instant.single 7 (.rx false 0x37)] } = .next t :=
  ⟨by constructor <;> decide, _, rfl⟩

theorem witness_ResetState : Params.default.inRange = true ∧ 1 ≤ Params.default.cap := by
  and_intros <;> decide

end Sys2Proof.Tests
end

section
/-! PROOFS. What taking an event does to the state, and the step as the operation of that event (00_scope.md R16, R17;
10_state.md R48). -/

namespace Sys2Proof.Machine

/-! ### Advancing a ring index (10_state.md R36, R47) -/

theorem idxAdvance_eq {cap a k : Nat} (ha : a < 2 * cap) (hk : k < 2 * cap) :
    (a + k) % (2 * cap) = if a + k < 2 * cap then a + k else a + k - 2 * cap := by
  split
  · exact Nat.mod_eq_of_lt ‹_›
  · rw [Nat.mod_eq_sub_mod (by omega), Nat.mod_eq_of_lt (by omega)]

theorem idxDist_advance_self {cap a k : Nat} (ha : a < 2 * cap) (hk : k < 2 * cap) :
    idxDist cap a ((a + k) % (2 * cap)) = k := by
  rw [idxDist_eq ha (Nat.mod_lt _ (by omega)), idxAdvance_eq ha hk]
  (repeat' split) <;> omega

/-- Advancing an index, not past another, brings it that much nearer. -/
theorem idxDist_advance_left {cap a b k : Nat} (ha : a < 2 * cap) (hb : b < 2 * cap) (hk : k ≤ idxDist cap a b) :
    k + idxDist cap ((a + k) % (2 * cap)) b = idxDist cap a b := by
  have hlt := idxDist_lt ha hb
  rw [idxDist_eq ha hb] at hk hlt ⊢
  rw [idxDist_eq (Nat.mod_lt _ (by omega)) hb, idxAdvance_eq ha (by omega)]
  split at hk <;> (repeat' split) <;> omega

/-! ### Index copies (10_state.md R48) -/

theorem travelled_replicate {cap v : Nat} (hv : v < 2 * cap) (n : Nat) : travelled cap (List.replicate n v) = 0 := by
  induction n with
  | zero => rfl
  | succ n ih =>
    cases n with
    | zero => rfl
    | succ n =>
      have hself : idxDist cap v v = 0 := idxDist_self hv
      simpa only [List.replicate_succ, travelled, hself, Nat.zero_add] using ih

/-- An index that stood still for `lag` steps of the reader leaves its copy no lag. -/
theorem allowedLag_still {cap lag orig : Nat} (ho : orig < 2 * cap) (seen : Nat) :
    allowedLag cap lag orig seen (List.replicate lag orig) = 0 := by
  have hstill : travelled cap (List.replicate lag orig ++ [orig]) = 0 := by
    rw [← List.replicate_succ']
    exact travelled_replicate ho _
  simp [allowedLag, hstill]

/-- The model's copy moves as R48 lets it, whatever value is drawn. -/
theorem syncCopy_follows (cap lag draw orig seen : Nat) (past : List Nat) :
    CopyFollows cap lag orig seen (syncCopy cap lag draw orig seen past) past := by
  refine ⟨fun hs ho => ?_, fun h0 => by simp [syncCopy, h0]⟩
  obtain ⟨k, hk, heq, hlag, -⟩ := syncCopy_spec (lag := lag) (draw := draw) (past := past) hs ho
  have hlt : syncCopy cap lag draw orig seen past < 2 * cap := by
    rw [heq]
    exact Nat.mod_lt _ (by omega)
  have hgone : idxDist cap seen (syncCopy cap lag draw orig seen past) = k := by
    rw [heq]
    exact idxDist_advance_self hs (hk.trans_lt (idxDist_lt hs ho))
  have hleft : k + idxDist cap (syncCopy cap lag draw orig seen past) orig = idxDist cap seen orig := by
    rw [heq]
    exact idxDist_advance_left hs ho hk
  refine ⟨hlt, hgone.symm ▸ hleft, fun hpast => ?_⟩
  have hnone : allowedLag cap lag orig seen past = 0 := hpast ▸ allowedLag_still ho seen
  exact (idxDist_eq_zero hlt ho).1 (by omega)

theorem Ring.syncWr_follows (cap lag draw : Nat) (r : Ring) : r.WrFollows cap lag (r.syncWr cap lag draw) :=
  ⟨syncCopy_follows .., rfl, rfl⟩

theorem Ring.syncRd_follows (cap lag draw : Nat) (r : Ring) : r.RdFollows cap lag (r.syncRd cap lag draw) :=
  ⟨syncCopy_follows .., rfl, rfl⟩

/-! ### The state that took an event (00_scope.md R17, 20_memory.md R80, R84) -/

@[simp] theorem State.accept_now (s : State) (now : Nat) (e : PortEvent) (rest : List Instant) :
    (s.accept now e rest).now = now % 2 ^ s.params.timeW := by
  cases e <;> rfl

@[simp] theorem State.accept_inputs (s : State) (now : Nat) (e : PortEvent) (rest : List Instant) :
    (s.accept now e rest).inputs = rest := by
  cases e <;> rfl

@[simp] theorem State.accept_out (s : State) (now : Nat) (e : PortEvent) (rest : List Instant) :
    (s.accept now e rest).out = Outputs.quiet := by
  cases e <;> rfl

/-- Taking an event writes the time, the inputs, the ports, the rings and the count of draws, and nothing else. -/
theorem State.accept_frame (s : State) (now : Nat) (e : PortEvent) (rest : List Instant) :
    { s.accept now e rest with now := s.now, inputs := s.inputs, out := s.out, rxRing := s.rxRing, txRing := s.txRing,
                               lagDraws := s.lagDraws } = s := by
  cases e <;> rfl

/-- RXI reads RX_RD. -/
theorem State.accept_rx_rxRing (s : State) (now : Nat) (mark : Bool) (b : Byte) (rest : List Instant) :
    s.rxRing.RdFollows s.params.cap s.params.syncLag (s.accept now (.rx mark b) rest).rxRing :=
  Ring.syncRd_follows ..

/-- RXI as a polled device reads TX_WR. -/
theorem State.accept_rx_txRing_polled {s : State} (h : s.role = .slave ∨ s.role = .slaveInit) (now : Nat) (mark : Bool)
    (b : Byte) (rest : List Instant) :
    s.txRing.WrFollows s.params.cap s.params.syncLag (s.accept now (.rx mark b) rest).txRing := by
  have hreads : readsTx s.role (.rx mark b) = true := by
    rcases h with h | h <;> rw [h] <;> rfl
  simp only [State.accept, State.syncCopies, hreads, if_true]
  exact Ring.syncWr_follows ..

/-- RXI in the other roles leaves the TX ring alone. -/
theorem State.accept_rx_txRing_unpolled {s : State} (h : s.role = .idle ∨ s.role = .master) (now : Nat) (mark : Bool)
    (b : Byte) (rest : List Instant) : (s.accept now (.rx mark b) rest).txRing = s.txRing := by
  have hreads : readsTx s.role (.rx mark b) = false := by
    rcases h with h | h <;> rw [h] <;> rfl
  simp [State.accept, State.syncCopies, hreads]

/-- TXI reads no ring. -/
theorem State.accept_txReady_rings (s : State) (now : Nat) (rest : List Instant) :
    (s.accept now .txReady rest).rxRing = s.rxRing ∧ (s.accept now .txReady rest).txRing = s.txRing :=
  ⟨rfl, rfl⟩

/-- HOST reads RX_WR. -/
theorem State.accept_cmd_rxRing (s : State) (now : Nat) (c : HostCmd) (rest : List Instant) :
    s.rxRing.WrFollows s.params.cap s.params.syncLag (s.accept now (.cmd c) rest).rxRing :=
  Ring.syncWr_follows ..

/-- HOST reads TX_RD. -/
theorem State.accept_cmd_txRing {s : State} (h : s.role ≠ .master) (now : Nat) (c : HostCmd) (rest : List Instant) :
    s.txRing.RdFollows s.params.cap s.params.syncLag (s.accept now (.cmd c) rest).txRing := by
  have hreads : readsTx s.role (.cmd c) = false := by
    cases hr : s.role with
    | master => exact absurd hr h
    | idle | slaveInit | slave => rfl
  simp only [State.accept, State.syncCopies, hreads]
  exact Ring.syncRd_follows ..

/-- HOST as master reads TX_WR too, as the consumer of its own ring. -/
theorem State.accept_cmd_txRing_master {s : State} (h : s.role = .master) (now : Nat) (c : HostCmd)
    (rest : List Instant) :
    ∃ r, s.txRing.WrFollows s.params.cap s.params.syncLag r ∧
      r.RdFollows s.params.cap s.params.syncLag (s.accept now (.cmd c) rest).txRing := by
  have hreads : readsTx s.role (.cmd c) = true := by rw [h]; rfl
  simp only [State.accept, State.syncCopies, hreads, if_true]
  exact ⟨_, Ring.syncWr_follows .., Ring.syncRd_follows ..⟩

/-! ### The step (00_scope.md R16) -/

/-- With an event left a step runs the event's operation. -/
theorem step_event {s : State} {now : Nat} {e : PortEvent} {rest : List Instant}
    (h : nextEvent s.inputs = some (now, e, rest)) : step s = exec (decodePort e) (s.accept now e rest) := by
  simp [step, fetch, h]

/-- With no event left a step rests. -/
theorem step_rest {s : State} (h : nextEvent s.inputs = none) : step s = .next s.rest := by
  simp [step, fetch, h]

theorem decode_port_ok {e : PortEvent} {i : Instr} : decode (.port e) = .ok i ↔ decodePort e = i := by
  simp [decode]

/-- Settles O55: the step is the event's operation, and the copies move by the agent that the event names. -/
theorem stepRunsDecodedOperation : Obligations.StepRunsDecodedOperation := by
  refine ⟨fun s now e rest i hev hdec => ?_, fun s hev => step_rest hev⟩
  obtain rfl := decode_port_ok.1 hdec
  refine ⟨step_event hev, s.accept_now .., s.accept_inputs .., s.accept_out .., s.accept_frame .., ?_⟩
  cases e with
  | rx mark b =>
    exact ⟨s.accept_rx_rxRing .., fun h => State.accept_rx_txRing_polled h ..,
      fun h => State.accept_rx_txRing_unpolled h ..⟩
  | txReady => exact s.accept_txReady_rings ..
  | cmd c =>
    exact ⟨s.accept_cmd_rxRing .., fun h => State.accept_cmd_txRing h ..,
      fun h => State.accept_cmd_txRing_master h ..⟩

end Sys2Proof.Machine
end

section
/-! PROOFS. The reset state (10_state.md R50, R52), and a state that meets the invariants of R52 but steps to one that
does not. -/

namespace Sys2Proof.Machine

/-! ### The reset state (10_state.md R50, R52) -/

theorem Params.cap_of_inRange {p : Params} (h : p.inRange = true) : 1 ≤ p.cap := by
  simp only [Params.inRange, Bool.and_eq_true, decide_eq_true_eq] at h
  omega

/-- An empty ring holds no Message. -/
@[simp] theorem Ring.empty_contents (cap : Nat) : (Ring.empty cap).contents cap = [] := by
  simp [Ring.contents, Ring.count, Ring.empty, idxDist]

/-- An empty ring is one a run has. -/
theorem Ring.empty_ok {cap : Nat} (hc : 1 ≤ cap) (lag : Nat) : (Ring.empty cap).Ok cap lag := by
  have hpos : 0 < 2 * cap := by omega
  have hself : idxDist cap 0 0 = 0 := idxDist_self hpos
  have hindex : (Ring.empty cap).indexOk cap :=
    ⟨⟨hpos, hpos, hpos, hpos⟩, by simp [Ring.empty, hself]⟩
  exact ⟨Ring.shapeOk_empty cap, hindex, ⟨Nat.zero_le _, fun _ => rfl, nofun⟩, fun _ => ⟨rfl, rfl⟩⟩

/-- An empty ring is not full. -/
theorem Ring.empty_not_full {cap : Nat} (hc : 1 ≤ cap) : (Ring.empty cap).isFull cap = false := by
  have hself : idxDist cap 0 0 = 0 := idxDist_self (by omega)
  simp only [Ring.isFull, Ring.empty, hself, beq_eq_false_iff_ne]
  omega

/-- No slot is held after reset. -/
theorem State.resetWith_slot (p : Params) (t : Nat) : (State.resetWith p).slots.getD t none = none := by
  simp only [State.resetWith, List.getD_eq_getElem?_getD, List.getElem?_replicate]
  split <;> rfl

/-- The reset state meets the invariants for every choice of the parameters in range. -/
theorem State.resetWith_inv {p : Params} (h : p.inRange = true) : (State.resetWith p).Inv where
  params := h
  rx := Ring.empty_ok (Params.cap_of_inRange h) _
  tx := Ring.empty_ok (Params.cap_of_inRange h) _
  txCursor := rfl
  rxMsgs := by simp [State.rxQueue, State.resetWith]
  txMsgs := by simp [State.txQueue, State.resetWith]
  body := nofun
  window := nofun
  engine := nofun
  buffer := rfl
  address := nofun
  idle _ := rfl
  manual _ := .inl rfl
  slotCount := rfl
  slotsUnique i _ _ _ _ _ := State.resetWith_slot p i
  time := ⟨Nat.two_pow_pos _, Nat.two_pow_pos _⟩

/-- Settles O59: the reset values are those `resetWith` writes, and they meet the invariants. -/
theorem resetState : Obligations.ResetState := by
  refine ⟨rfl, fun p => ⟨State.resetWith_inv, ?_⟩⟩
  and_intros
  all_goals try rfl
  · exact fun t _ => State.resetWith_slot p t
  · exact fun hc => ⟨Ring.empty_not_full hc, Ring.empty_not_full hc⟩

/-! ### A body that is longer than a Message (10_state.md R52 item 4, 40_wire_codec.md R151) -/

/-- The Message being assembled: its header announces eight data bytes, one more than a Message has. -/
def overlongBytes : Message := [0x80, 0x08, 0, 0, 0, 0, 0, 0, 0, 0]

/-- A parser that waits for the last byte of an eleven-byte Message while the cursor is already at position 10. Item 4
of R52 holds, `10 + 1 = 8 + 3`, for it does not bound the header's count by 7; no run gets here, since HEADER refuses
such a header (R149). -/
def overlongBody : State :=
  { State.reset with
    setupDone := true, myAddr := 1, rxaSt := .body, rxaRem := 1
    rxRing := { Ring.empty 5 with
      mem := (Ring.empty 5).mem.set 0 { len := 0, bytes := overlongBytes }, curOpen := true, curPos := 10 }
    inputs := [Instant.single 0 (.rx false 0x00)] }

theorem overlongBody_inv : overlongBody.Inv := by
  constructor <;> decide

/-- The last byte is ignored at position 10 (41_ring_buffers.md R161), and the ten bytes are committed. -/
theorem overlongBody_step : ∃ t, step overlongBody = .next t ∧ t.rxQueue = [overlongBytes] := by
  refine ⟨_, rfl, ?_⟩
  decide

theorem overlongBytes_not_headerOk : ¬ headerOk overlongBytes := by decide

/-- Refutes O58: a state with the invariants, whose open Message has a header that announces eight data bytes, commits a
Message shorter than its header says (10_state.md R52 item 3). -/
theorem not_everyStepKeepsInvariant : ¬ Obligations.EveryStepKeepsInvariant := by
  intro h
  obtain ⟨t, hstep, hqueue⟩ := overlongBody_step
  have hmsg : overlongBytes ∈ t.rxQueue := by simp [hqueue]
  exact overlongBytes_not_headerOk ((h overlongBody t overlongBody_inv hstep).rxMsgs _ hmsg).2

end Sys2Proof.Machine
end

section
/-! PROOFS. What the Dispatcher and the host commands but SETUP and POLL write and report (10_state.md R51,
60_exceptions.md R354). -/

namespace Sys2Proof.Machine

/-! ### The read index of a ring belongs to its consumer (20_memory.md R77) -/

@[simp] theorem Ring.appendByte_rd (cap : Nat) (r : Ring) (b : Byte) : (r.appendByte cap b).rd = r.rd := by
  unfold Ring.appendByte
  split <;> rfl

@[simp] theorem Ring.appendAll_rd (cap : Nat) (r : Ring) (m : Message) : (r.appendAll cap m).rd = r.rd := by
  induction m generalizing r with
  | nil => rfl
  | cons b m ih => rw [Ring.appendAll_cons, ih, Ring.appendByte_rd]

@[simp] theorem Ring.commit_rd (cap lag : Nat) (r : Ring) : (r.commit cap lag).rd = r.rd := by
  unfold Ring.commit
  split <;> rfl

theorem Ring.enqueue_rd {cap lag : Nat} {r r' : Ring} {m : Message} (h : r.enqueue cap lag m = some r') :
    r'.rd = r.rd := by
  obtain ⟨-, rfl⟩ := Ring.enqueue_some.1 h
  rw [Ring.commit_rd, Ring.appendAll_rd]

/-! ### What is reported: conditions raised, notifications emitted (60_exceptions.md R340, 43_dispatcher.md R233) -/

/-- From the ports `o` to the ports `p` at most `n` conditions were raised and at most `k` notifications emitted, and
none was taken back. -/
structure Outputs.Reports (n k : Nat) (o p : Outputs) : Prop where
  raised : ∃ es, es.length ≤ n ∧ p.raised = o.raised ++ es
  ntf : ∃ ns, ns.length ≤ k ∧ p.ntf = o.ntf ++ ns

/-- An operation that leaves both records alone reports nothing. -/
theorem Outputs.Reports.nothing {n k : Nat} {o p : Outputs} (hr : p.raised = o.raised) (hn : p.ntf = o.ntf) :
    o.Reports n k p :=
  ⟨⟨[], Nat.zero_le _, by simp [hr]⟩, ⟨[], Nat.zero_le _, by simp [hn]⟩⟩

theorem Outputs.Reports.mono {n k n' k' : Nat} {o p : Outputs} (h : o.Reports n k p)
    (hb : n ≤ n' ∧ k ≤ k') : o.Reports n' k' p := by
  obtain ⟨hn, hk⟩ := hb
  obtain ⟨⟨es, hes, hr⟩, ns, hns, hf⟩ := h
  exact ⟨⟨es, hes.trans hn, hr⟩, ns, hns.trans hk, hf⟩

theorem Outputs.Reports.trans {n k n' k' : Nat} {o p q : Outputs} (h : o.Reports n k p) (h' : p.Reports n' k' q) :
    o.Reports (n + n') (k + k') q := by
  obtain ⟨⟨es, hes, hr⟩, ns, hns, hf⟩ := h
  obtain ⟨⟨es', hes', hr'⟩, ns', hns', hf'⟩ := h'
  refine ⟨⟨es ++ es', ?_, by rw [hr', hr, List.append_assoc]⟩, ns ++ ns', ?_, by rw [hf', hf, List.append_assoc]⟩
  · rw [List.length_append]
    omega
  · rw [List.length_append]
    omega

/-- With none emitted the notifications stay. -/
theorem Outputs.Reports.ntf_eq {n : Nat} {o p : Outputs} (h : o.Reports n 0 p) : p.ntf = o.ntf := by
  obtain ⟨-, ns, hns, hf⟩ := h
  rw [hf, List.eq_nil_of_length_eq_zero (Nat.le_zero.1 hns), List.append_nil]

theorem State.raise_reports (s : State) (e : ErrCond) : s.out.Reports 1 0 (s.raise e).out :=
  ⟨⟨[e], Nat.le_refl _, rfl⟩, [], Nat.le_refl _, by simp⟩

theorem State.notify_reports (s : State) (n : Notification) : s.out.Reports 0 1 (s.notify n).out := by
  rw [State.notify_eq]
  refine ⟨⟨[], Nat.le_refl _, by simp⟩, s.heard n.kind n, ?_, rfl⟩
  unfold State.heard
  split <;> simp

/-- The parser's reset raises at most the truncation (40_wire_codec.md R155). -/
theorem State.cut_reports (s : State) : s.out.Reports 1 0 s.cut.out := by
  refine ⟨⟨if s.rxaSt = .body then [.framingTruncated] else [], ?_, rfl⟩, [], Nat.le_refl _, by simp⟩
  split <;> simp

/-! ### What the Dispatcher and the host commands but SETUP and POLL write (10_state.md R51) -/

/-- The state `t` with all that the Dispatcher and those host commands write put back to what it is in `s`. -/
def State.withHostPart (t s : State) : State :=
  { t with txRing := s.txRing, slots := s.slots, pendInfo := s.pendInfo, pendInfoAddr := s.pendInfoAddr,
           pendInfoSeq := s.pendInfoSeq, pendFunc := s.pendFunc, pendFuncAddr := s.pendFuncAddr,
           pendFuncSeq := s.pendFuncSeq, power := s.power, lastCvValid := s.lastCvValid, lastCvIdx := s.lastCvIdx,
           lastCvVal := s.lastCvVal, out := s.out }

/-- `t` is `s` after writes of the Dispatcher's or of a host command's, with at most `n` conditions raised and `k`
notifications emitted; the TX ring is produced into only. -/
structure State.HostEffect (n k : Nat) (s t : State) : Prop where
  frame : t.withHostPart s = s
  txRd : t.txRing.rd = s.txRing.rd
  reports : s.out.Reports n k t.out

/-- Writes that report nothing. -/
theorem State.HostEffect.silent {s t : State} (hf : t.withHostPart s = s) (hrd : t.txRing.rd = s.txRing.rd)
    (ho : t.out = s.out) : s.HostEffect 0 0 t :=
  ⟨hf, hrd, .nothing (by rw [ho]) (by rw [ho])⟩

theorem State.HostEffect.refl (s : State) : s.HostEffect 0 0 s := .silent rfl rfl rfl

theorem State.HostEffect.mono {n k n' k' : Nat} {s t : State} (h : s.HostEffect n k t)
    (hb : n ≤ n' ∧ k ≤ k') : s.HostEffect n' k' t :=
  ⟨h.frame, h.txRd, h.reports.mono hb⟩

theorem State.HostEffect.trans {n k n' k' : Nat} {s t u : State} (h : s.HostEffect n k t)
    (h' : t.HostEffect n' k' u) : s.HostEffect (n + n') (k + k') u where
  frame := calc
    u.withHostPart s = (u.withHostPart t).withHostPart s := rfl
    _ = s := by rw [h'.frame, h.frame]
  txRd := h'.txRd.trans h.txRd
  reports := h.reports.trans h'.reports

/-- What the Dispatcher and a host command do not write is as before. -/
theorem State.HostEffect.same {α : Type} {n k : Nat} {s t : State} (h : s.HostEffect n k t) (f : State → α) :
    f (t.withHostPart s) = f s :=
  congrArg f h.frame

theorem State.raise_effect (s : State) (e : ErrCond) : s.HostEffect 1 0 (s.raise e) :=
  ⟨rfl, rfl, s.raise_reports e⟩

theorem State.notify_effect (s : State) (n : Notification) : s.HostEffect 0 1 (s.notify n) :=
  ⟨by rw [State.notify_eq]; rfl, by simp, s.notify_reports n⟩

theorem State.respond_effect (s : State) (st : Status) (v : Byte) : s.HostEffect 0 0 (s.respond st v) :=
  ⟨rfl, rfl, .nothing rfl rfl⟩

theorem State.failCmd_effect (s : State) (st : Status) (v : Byte) : s.HostEffect 1 0 (s.failCmd st v) := by
  unfold State.failCmd
  split
  · exact (s.raise_effect _).trans (State.respond_effect _ st v)
  · exact (s.respond_effect st v).mono (by decide)

/-- A Message queued. -/
theorem State.queued_effect {s : State} {r : Ring} {m : Message}
    (h : s.txRing.enqueue s.params.cap s.params.syncLag m = some r) : s.HostEffect 0 0 { s with txRing := r } :=
  .silent rfl (Ring.enqueue_rd h) rfl

theorem State.reply_effect (s : State) (cb : Byte) (frame : List Byte) : s.HostEffect 1 0 (s.reply cb frame) := by
  rcases s.reply_cases cb frame with ⟨-, h⟩ | ⟨-, r, hr, h⟩
  · rw [h]
    exact s.raise_effect _
  · rw [h]
    exact (State.queued_effect hr).mono (by decide)

theorem State.slots_effect (s : State) (slots : List (Option LocoAddr)) : s.HostEffect 0 0 { s with slots := slots } :=
  .silent rfl rfl rfl

theorem State.cacheCv_effect (s : State) (cv val : Byte) : s.HostEffect 0 0 (s.cacheCv cv val) := .silent rfl rfl rfl

theorem State.power_effect (s : State) (p : Power) : s.HostEffect 0 0 { s with power := p } := .silent rfl rfl rfl

theorem State.pendInfo_effect (s : State) (b : Bool) (loco : LocoAddr) (seq : BitVec 8) :
    s.HostEffect 0 0 { s with pendInfo := b, pendInfoAddr := loco, pendInfoSeq := seq } :=
  .silent rfl rfl rfl

theorem State.pendFunc_effect (s : State) (b : Bool) (loco : LocoAddr) (seq : BitVec 8) :
    s.HostEffect 0 0 { s with pendFunc := b, pendFuncAddr := loco, pendFuncSeq := seq } :=
  .silent rfl rfl rfl

theorem State.clearInfo_effect (s : State) (loco : LocoAddr) : s.HostEffect 0 0 (s.clearInfo loco) := by
  unfold State.clearInfo
  split
  · exact s.pendInfo_effect false _ _
  · exact .refl s

theorem State.clearFunc_effect (s : State) (loco : LocoAddr) : s.HostEffect 0 0 (s.clearFunc loco) := by
  unfold State.clearFunc
  split
  · exact s.pendFunc_effect false _ _
  · exact .refl s

/-! ### The Dispatcher (43_dispatcher.md R236 to R271) -/

/-- A granted command is notified; a refused one raises `E_BUSY` and, its notice finding the ring full, `E_TX_FULL`. -/
theorem State.bookedNotify_effect (s : State) (dev : DevAddr) (loco : LocoAddr) (n : Notification) :
    s.HostEffect 2 1 (s.bookedNotify dev loco n) := by
  unfold State.bookedNotify
  rcases s.book_cases dev loco with ⟨-, h⟩ | ⟨-, -, h⟩ | ⟨-, -, -, h⟩ | ⟨-, -, t, -, h⟩ <;> rw [h]
  · exact (s.notify_effect n).mono (by decide)
  · exact ((s.slots_effect _).trans (State.notify_effect _ n)).mono (by decide)
  · exact (s.raise_effect _).mono (by decide)
  · exact ((s.raise_effect _).trans (State.reply_effect ..)).mono (by decide)

theorem State.powerNotify_effect (s : State) (p : Power) : s.HostEffect 0 1 (s.powerNotify p) :=
  (s.power_effect p).trans (State.notify_effect _ _)

theorem State.powerRequested_effect (s : State) (p : Power) : s.HostEffect 1 1 (s.powerRequested p) :=
  (s.powerNotify_effect p).trans (State.reply_effect ..)

theorem State.driveReport_effect (s : State) (loco : LocoAddr) (n : Notification) :
    s.HostEffect 0 1 ((s.notify n).clearInfo loco) :=
  (s.notify_effect n).trans (State.clearInfo_effect ..)

theorem State.funcReport_effect (s : State) (loco : LocoAddr) (n : Notification) :
    s.HostEffect 0 1 ((s.notify n).clearFunc loco) :=
  (s.notify_effect n).trans (State.clearFunc_effect ..)

/-- The effect of a Message: at most two conditions and one notification. -/
theorem runFrame_effect (i : Instr) (s : State) : ∃ t, runFrame i s = .next t ∧ s.HostEffect 2 1 t := by
  cases i with
  | pwrOnReq | pwrOffReq | pwrServiceReq | estopReq => exact ⟨_, rfl, (s.powerRequested_effect _).mono (by decide)⟩
  | bcPwrOn | bcPwrOff | bcService | bcEstop => exact ⟨_, rfl, (s.powerNotify_effect _).mono (by decide)⟩
  | cvReadDirect | turnoutStatusReq | turnoutCmd | locoInfoReq | locoFuncReq | pomByte | pomBit | turnoutFb
  | turnoutCmdM => exact ⟨_, rfl, (s.notify_effect _).mono (by decide)⟩
  | locoDrive14 | locoDrive27 | locoDrive28 | locoDrive128 | locoFuncG1 | locoFuncG2 | locoFuncG3 | locoFuncG4
  | locoFuncG5 => exact ⟨_, rfl, s.bookedNotify_effect _ _ _⟩
  | locoDrive14M | locoDrive27M | locoDrive28M | locoDrive128M =>
    exact ⟨_, rfl, (s.driveReport_effect _ _).mono (by decide)⟩
  | locoFuncG1M | locoFuncG2M | locoFuncG3M | locoFuncG4M | locoFuncG5M =>
    exact ⟨_, rfl, (s.funcReport_effect _ _).mono (by decide)⟩
  | cvWriteDirect => exact ⟨_, rfl, ((s.cacheCv_effect _ _).trans (State.notify_effect _ _)).mono (by decide)⟩
  | cvResult => exact ⟨_, rfl, (s.cacheCv_effect _ _).mono (by decide)⟩
  | dmUnknown => exact ⟨_, rfl, ((s.raise_effect _).trans (State.reply_effect ..)).mono (by decide)⟩
  | _ => exact ⟨_, rfl, (State.HostEffect.refl s).mono (by decide)⟩

theorem dispatch_effect (m : Message) (s : State) : ∃ t, dispatch m s = .next t ∧ s.HostEffect 2 1 t := by
  unfold dispatch
  cases decodeFrameBy s.params.hdrMap m with
  | ok i => exact runFrame_effect i s
  | error e => exact ⟨_, rfl, (State.HostEffect.refl s).mono (by decide)⟩

/-! ### The host commands but SETUP and POLL (45_host_commands.md R306 to R325) -/

/-- The check of `SETUP_DONE` adds nothing that a failing command does not do. -/
theorem State.gated_effect {s k : State} (h : s.HostEffect 1 0 k) : s.HostEffect 1 0 (s.gated k) := by
  unfold State.gated
  split
  · exact s.failCmd_effect _ _
  · exact h

/-- A push writes what its continuation writes, or fails. -/
theorem State.pushFrame_effect {s : State} {frame : List Byte} {v : Byte} {k : State → State}
    (hk : ∀ u : State, u.HostEffect 1 0 (k u)) : s.HostEffect 1 0 (s.pushFrame frame v k) := by
  rcases s.pushFrame_cases frame v k with ⟨-, h⟩ | ⟨-, r, hr, h⟩ <;> rw [h]
  · exact s.failCmd_effect .eTxFull 0
  · exact ((State.queued_effect hr).trans (hk _)).trans (State.respond_effect ..)

theorem State.pushFrame_id_effect (s : State) (frame : List Byte) (v : Byte) :
    s.HostEffect 1 0 (s.pushFrame frame v id) :=
  State.pushFrame_effect fun u => (State.HostEffect.refl u).mono (by decide)

theorem State.pushClaimed_effect (s : State) (loco : LocoAddr) (frame : List Byte) :
    s.HostEffect 1 0 (s.pushClaimed loco frame) := by
  unfold State.pushClaimed
  split
  · split
    · exact State.pushFrame_effect fun u => (u.slots_effect _).mono (by decide)
    · exact s.failCmd_effect _ _
  · exact s.pushFrame_id_effect _ _

/-- The rows of the host commands but SETUP and POLL (30_encoding.md R126). -/
def isPlainHostRow : Instr → Bool
  | .setPower _ | .getPower | .getRole | .locoClaim _ | .locoBusyNote _ | .pushDrive _ _ _ | .pushFunc _ _ _
  | .getLocoInfo _ | .getLocoFunc _ | .pushTurnoutStatus _ | .pushTurnoutCmd _ _ | .setCvReadValue _ _ | .setCvNack
  | .setCvNackSc | .pushFeedback _ | .releaseSlot _ | .pendTimeout _ | .hostReserved _ => true
  | _ => false

/-- Every host command code but those of SETUP and POLL names one of these rows. -/
theorem decodeHost_isPlainHostRow {c : HostCmd} (h0 : c.op ≠ 0) (h1 : c.op ≠ 1) :
    isPlainHostRow (decodeHost c) = true := by
  unfold decodeHost
  split
  · rename_i h
    exact absurd (BitVec.eq_of_toNat_eq h) h0
  · rename_i h
    exact absurd (BitVec.eq_of_toNat_eq h) h1
  all_goals rfl

/-- Such a command writes what is its own, notifies nothing and raises at most one condition. -/
theorem hostRow_effect {i : Instr} (hi : isPlainHostRow i = true) (s : State) :
    ∃ t, exec i s = .next t ∧ s.HostEffect 1 0 t := by
  cases i with
  | setPower arg0 =>
    refine ⟨_, rfl, State.gated_effect ?_⟩
    split
    · exact s.failCmd_effect _ _
    · split
      · exact State.pushFrame_effect fun u => (u.power_effect _).mono (by decide)
      · split
        · exact s.failCmd_effect _ _
        · exact s.pushFrame_id_effect _ _
  | getPower | getRole => exact ⟨_, rfl, State.gated_effect ((s.respond_effect _ _).mono (by decide))⟩
  | locoClaim arg0 =>
    refine ⟨_, rfl, State.gated_effect ?_⟩
    split
    · exact s.failCmd_effect _ _
    · split
      · exact ((s.slots_effect _).trans (State.respond_effect ..)).mono (by decide)
      · exact s.failCmd_effect _ _
  | locoBusyNote arg0 =>
    refine ⟨_, rfl, State.gated_effect ?_⟩
    split
    · exact s.failCmd_effect _ _
    · split
      · exact s.pushFrame_id_effect _ _
      · exact (s.respond_effect _ _).mono (by decide)
  | pushDrive arg0 arg1 arg2 =>
    refine ⟨_, rfl, State.gated_effect ?_⟩
    split
    · exact s.pushClaimed_effect _ _
    · exact s.failCmd_effect _ _
  | pushFunc arg0 arg1 arg2 =>
    refine ⟨_, rfl, State.gated_effect ?_⟩
    split
    · exact s.pushClaimed_effect _ _
    · exact s.failCmd_effect _ _
  | getLocoInfo arg0 =>
    refine ⟨_, rfl, State.gated_effect ?_⟩
    split
    · exact s.failCmd_effect _ _
    · split
      · exact s.failCmd_effect _ _
      · exact State.pushFrame_effect fun u => (u.pendInfo_effect _ _ _).mono (by decide)
  | getLocoFunc arg0 =>
    refine ⟨_, rfl, State.gated_effect ?_⟩
    split
    · exact s.failCmd_effect _ _
    · split
      · exact s.failCmd_effect _ _
      · exact State.pushFrame_effect fun u => (u.pendFunc_effect _ _ _).mono (by decide)
  | pushTurnoutStatus | pushFeedback => exact ⟨_, rfl, State.gated_effect (s.pushFrame_id_effect _ _)⟩
  | pushTurnoutCmd arg0 arg1 =>
    refine ⟨_, rfl, State.gated_effect ?_⟩
    split
    · exact s.failCmd_effect _ _
    · exact s.pushFrame_id_effect _ _
  | setCvReadValue arg0 arg1 =>
    refine ⟨_, rfl, State.gated_effect ?_⟩
    split
    · exact s.failCmd_effect _ _
    · exact State.pushFrame_effect fun u => (u.cacheCv_effect _ _).mono (by decide)
  | setCvNack | setCvNackSc =>
    exact ⟨_, rfl, State.gated_effect (State.pushFrame_effect fun u => u.raise_effect _)⟩
  | releaseSlot arg0 =>
    refine ⟨_, rfl, State.gated_effect ?_⟩
    split
    · exact ((s.slots_effect _).trans (State.respond_effect ..)).mono (by decide)
    · exact s.failCmd_effect _ _
  | pendTimeout arg0 =>
    refine ⟨_, rfl, State.gated_effect ?_⟩
    split
    · exact ((s.pendInfo_effect false _ _).trans (State.respond_effect ..)).mono (by decide)
    · split
      · exact ((s.pendFunc_effect false _ _).trans (State.respond_effect ..)).mono (by decide)
      · exact s.failCmd_effect _ _
  | hostReserved => exact ⟨_, rfl, s.failCmd_effect _ _⟩
  | _ => cases hi

end Sys2Proof.Machine
end

section
/-! PROOFS. What POLL, RXI and TXI write, what every operation reports, and so who writes what (10_state.md R51,
60_exceptions.md R354). -/

namespace Sys2Proof.Machine

/-! ### POLL (10_state.md R51, 42_arbitrator.md R195 to R222) -/

/-- The state `t` with all that POLL writes put back to what it is in `s`. -/
def State.withPollPart (t s : State) : State :=
  { t with role := s.role, pollAddr := s.pollAddr, callByte := s.callByte, missCnt := s.missCnt, winOpen := s.winOpen,
           winT0 := s.winT0, oppSeq := s.oppSeq, cbSeen := s.cbSeen, rxaSt := s.rxaSt, rxRing := s.rxRing,
           txRing := s.txRing, txActive := s.txActive, txBuf := s.txBuf, txLen := s.txLen, txIdx := s.txIdx,
           txMark0 := s.txMark0, txOpensWin := s.txOpensWin, slots := s.slots, pendInfo := s.pendInfo,
           pendInfoAddr := s.pendInfoAddr, pendInfoSeq := s.pendInfoSeq, pendFunc := s.pendFunc,
           pendFuncAddr := s.pendFuncAddr, pendFuncSeq := s.pendFuncSeq, power := s.power,
           lastCvValid := s.lastCvValid, lastCvIdx := s.lastCvIdx, lastCvVal := s.lastCvVal, out := s.out }

/-- `t` is `s` after writes of POLL's, with at most `n` conditions raised and `k` notifications emitted: the RX ring is
consumed from only, `CB_SEEN` and the window are only closed, and the parser is only reset. -/
structure State.PollEffect (n k : Nat) (s t : State) : Prop where
  frame : t.withPollPart s = s
  rxMem : t.rxRing.mem = s.rxRing.mem
  rxWr : t.rxRing.wr = s.rxRing.wr
  cbSeen : t.cbSeen = true → s.cbSeen = true
  winOpen : t.winOpen = true → s.winOpen = true
  rxaSt : t.rxaSt = s.rxaSt ∨ t.rxaSt = .idle
  reports : s.out.Reports n k t.out

/-- What POLL does not write is as before. -/
theorem State.PollEffect.same {α : Type} {n k : Nat} {s t : State} (h : s.PollEffect n k t) (f : State → α) :
    f (t.withPollPart s) = f s :=
  congrArg f h.frame

/-- Writes that leave the RX ring, the window, the parser and the ports alone. -/
theorem State.PollEffect.silent {s t : State} (hf : t.withPollPart s = s) (hrx : t.rxRing = s.rxRing)
    (hc : t.cbSeen = true → s.cbSeen = true) (hw : t.winOpen = s.winOpen) (hst : t.rxaSt = s.rxaSt)
    (ho : t.out = s.out) : s.PollEffect 0 0 t :=
  ⟨hf, by rw [hrx], by rw [hrx], hc, hw.symm.trans, .inl hst, .nothing (by rw [ho]) (by rw [ho])⟩

theorem State.PollEffect.refl (s : State) : s.PollEffect 0 0 s := .silent rfl rfl id rfl rfl rfl

theorem State.PollEffect.mono {n k n' k' : Nat} {s t : State} (h : s.PollEffect n k t)
    (hb : n ≤ n' ∧ k ≤ k') : s.PollEffect n' k' t :=
  { h with reports := h.reports.mono hb }

theorem State.PollEffect.trans {n k n' k' : Nat} {s t u : State} (h : s.PollEffect n k t)
    (h' : t.PollEffect n' k' u) : s.PollEffect (n + n') (k + k') u where
  frame := calc
    u.withPollPart s = (u.withPollPart t).withPollPart s := rfl
    _ = s := by rw [h'.frame, h.frame]
  rxMem := h'.rxMem.trans h.rxMem
  rxWr := h'.rxWr.trans h.rxWr
  cbSeen hc := h.cbSeen (h'.cbSeen hc)
  winOpen hw := h.winOpen (h'.winOpen hw)
  rxaSt := h'.rxaSt.elim (fun e => e ▸ h.rxaSt) .inr
  reports := h.reports.trans h'.reports

/-- What the Dispatcher writes is among what POLL writes. -/
theorem State.HostEffect.pollEffect {n k : Nat} {s t : State} (h : s.HostEffect n k t) : s.PollEffect n k t where
  frame := calc
    t.withPollPart s = (t.withHostPart s).withPollPart s := rfl
    _ = s := by rw [h.frame]; rfl
  rxMem := h.same (·.rxRing.mem)
  rxWr := h.same (·.rxRing.wr)
  cbSeen := (h.same State.cbSeen ▸ ·)
  winOpen := (h.same State.winOpen ▸ ·)
  rxaSt := .inl (h.same State.rxaSt)
  reports := h.reports

/-- The transmit engine, the opportunities and the consumer's side of the TX ring are left alone. -/
abbrev State.TxQuiet (s t : State) : Prop :=
  t.oppSeq = s.oppSeq ∧ t.txRing.rd = s.txRing.rd ∧ t.txActive = s.txActive ∧ t.txBuf = s.txBuf ∧ t.txLen = s.txLen ∧
    t.txIdx = s.txIdx

theorem State.TxQuiet.trans {s t u : State} (h : s.TxQuiet t) (h' : t.TxQuiet u) : s.TxQuiet u := by
  obtain ⟨hopp, hrd, hact, hbuf, hlen, hidx⟩ := h
  obtain ⟨hopp', hrd', hact', hbuf', hlen', hidx'⟩ := h'
  exact ⟨hopp'.trans hopp, hrd'.trans hrd, hact'.trans hact, hbuf'.trans hbuf, hlen'.trans hlen, hidx'.trans hidx⟩

theorem State.HostEffect.txQuiet {n k : Nat} {s t : State} (h : s.HostEffect n k t) : s.TxQuiet t :=
  ⟨h.same State.oppSeq, h.txRd, h.same State.txActive, h.same State.txBuf,
    h.same State.txLen, h.same State.txIdx⟩

theorem State.HostEffect.role {n k : Nat} {s t : State} (h : s.HostEffect n k t) : t.role = s.role :=
  h.same State.role

/-- A Message read from the RX ring. -/
theorem State.readRx_effect {s : State} {m : Message} {r : Ring}
    (h : s.rxRing.tryRead s.params.cap s.params.syncLag = some (m, r)) : s.PollEffect 0 0 { s with rxRing := r } := by
  obtain ⟨-, -, rfl⟩ := Ring.tryRead_some.1 h
  exact ⟨rfl, rfl, rfl, id, id, .inl rfl, .nothing rfl rfl⟩

/-- POLL line 1: one Message is taken and dispatched, or dropped (42_arbitrator.md R195). -/
theorem drain_effect (s : State) :
    ∃ t, drain s = .next t ∧ s.PollEffect 2 1 t ∧ s.TxQuiet t ∧ t.role = s.role := by
  rcases drain_cases s with ⟨-, h⟩ | ⟨-, m, r, hr, ⟨-, h⟩ | ⟨-, h⟩⟩
  · exact ⟨s, h, (State.PollEffect.refl s).mono (by decide), ⟨rfl, rfl, rfl, rfl, rfl, rfl⟩, rfl⟩
  · obtain ⟨t, ht, hd⟩ := dispatch_effect m { s with rxRing := r }
    exact ⟨t, h.trans ht, ((State.readRx_effect hr).trans hd.pollEffect).mono (by decide), hd.txQuiet, hd.role⟩
  · have hraise := State.raise_effect { s with rxRing := r } .checksum
    exact ⟨_, h, ((State.readRx_effect hr).trans hraise.pollEffect).mono (by decide), hraise.txQuiet, hraise.role⟩

theorem State.closeWindow_effect (s : State) : s.PollEffect 1 0 s.closeWindow := by
  rw [State.closeWindow_eq]
  exact ⟨rfl, rfl, rfl, id, nofun, .inr rfl, State.cut_reports { s with winOpen := false }⟩

theorem State.startTx_effect (s : State) (bs : List Byte) (m o : Bool) : s.PollEffect 0 0 (s.startTx bs m o) :=
  .silent rfl rfl id rfl rfl rfl

theorem State.selfSlot_effect (s : State) : s.PollEffect 0 0 s.selfSlot := by
  have hopp : s.PollEffect 0 0 { s with oppSeq := s.oppSeq + 1 } := .silent rfl rfl id rfl rfl rfl
  unfold State.selfSlot
  rcases State.readTx_cases { s with oppSeq := s.oppSeq + 1 } with ⟨-, h⟩ | ⟨-, m, r, -, h⟩
  · simp only [h]
    exact hopp
  · simp only [h]
    have hring : s.PollEffect 0 0 { s with oppSeq := s.oppSeq + 1, txRing := r } :=
      .silent rfl rfl id rfl rfl rfl
    exact hring.trans (State.startTx_effect ..)

theorem State.serveNext_effect (s : State) : s.PollEffect 0 0 s.serveNext := by
  have haddr : s.PollEffect 0 0 { s with pollAddr := nextAddr s.pollAddr } :=
    .silent rfl rfl id rfl rfl rfl
  unfold State.serveNext
  simp only
  split
  · exact haddr.trans (State.selfSlot_effect _)
  · have hcall (b : Byte) : s.PollEffect 0 0 { s with pollAddr := nextAddr s.pollAddr, callByte := b } :=
      .silent rfl rfl id rfl rfl rfl
    exact (hcall _).trans (State.startTx_effect ..)

theorem State.masterSlot_effect (s : State) : s.PollEffect 1 0 s.masterSlot := by
  unfold State.masterSlot
  split
  · exact (State.PollEffect.refl s).mono (by decide)
  · split
    · split
      · exact (State.PollEffect.refl s).mono (by decide)
      · exact s.closeWindow_effect.trans (State.serveNext_effect _)
    · exact s.serveNext_effect.mono (by decide)

theorem State.masterStep_effect (s : State) : s.PollEffect 1 0 s.masterStep := by
  have hseen : s.PollEffect 0 0 { s with cbSeen := false } :=
    .silent rfl rfl nofun rfl rfl rfl
  have hrole : s.PollEffect 0 0 { s with cbSeen := false, role := .slaveInit, missCnt := 0 } :=
    .silent rfl rfl nofun rfl rfl rfl
  unfold State.masterStep
  simp only
  split
  · split
    · exact hrole.trans (State.closeWindow_effect _)
    · exact hseen.trans (State.masterSlot_effect _)
  · exact s.masterSlot_effect

theorem State.idleStep_effect (s : State) : s.PollEffect 0 0 s.idleStep :=
  .silent rfl rfl nofun rfl rfl rfl

theorem State.slaveInitStep_effect (s : State) : s.PollEffect 1 0 s.slaveInitStep := by
  have hslave (u : State) : u.PollEffect 0 0 { u with role := .slave, missCnt := 0, winT0 := u.now } :=
    .silent rfl rfl id rfl rfl rfl
  exact (State.reply_effect ..).pollEffect.trans (hslave _)

theorem State.countCycle_effect (s : State) : s.PollEffect 0 0 s.countCycle := by
  unfold State.countCycle
  split
  · exact .silent rfl rfl nofun rfl rfl rfl
  · split
    · exact .silent rfl rfl id rfl rfl rfl
    · exact .refl s

theorem State.slaveStep_effect (s : State) : s.PollEffect 2 0 s.slaveStep := by
  have hrole (u : State) : u.PollEffect 0 0 { u with role := .master, missCnt := 0 } :=
    .silent rfl rfl id rfl rfl rfl
  unfold State.slaveStep
  simp only
  split
  · have hdesync (u : State) : u.PollEffect 1 0 (u.raise .roleDesync) := (u.raise_effect _).pollEffect
    exact s.countCycle_effect.trans ((hrole _).trans ((State.closeWindow_effect _).trans (hdesync _)))
  · exact s.countCycle_effect.mono (by decide)

/-- POLL line 2: the step of the role raises at most two conditions and notifies nothing. -/
theorem State.roleStep_effect (s : State) : s.PollEffect 2 0 s.roleStep := by
  unfold State.roleStep
  split
  · exact s.idleStep_effect.mono (by decide)
  · exact s.masterStep_effect.mono (by decide)
  · exact s.slaveInitStep_effect.mono (by decide)
  · exact s.slaveStep_effect

theorem State.countCycle_txQuiet (s : State) : s.TxQuiet s.countCycle := by
  unfold State.countCycle
  split
  · exact ⟨rfl, rfl, rfl, rfl, rfl, rfl⟩
  · split <;> exact ⟨rfl, rfl, rfl, rfl, rfl, rfl⟩

theorem State.slaveStep_txQuiet (s : State) : s.TxQuiet s.slaveStep := by
  unfold State.slaveStep
  simp only
  split
  · refine s.countCycle_txQuiet.trans ?_
    rw [State.closeWindow_eq]
    exact ⟨rfl, rfl, rfl, rfl, rfl, rfl⟩
  · exact s.countCycle_txQuiet

/-- Only as master does the role step transmit (42_arbitrator.md R195 line 2). -/
theorem State.roleStep_txQuiet {s : State} (h : s.role ≠ .master) : s.TxQuiet s.roleStep := by
  unfold State.roleStep
  split
  · exact ⟨rfl, rfl, rfl, rfl, rfl, rfl⟩
  · exact absurd ‹_› h
  · have hreply := s.reply_effect (mkCb .poll s.myAddr) (frameInit s.params)
    exact hreply.txQuiet.trans ⟨rfl, rfl, rfl, rfl, rfl, rfl⟩
  · exact s.slaveStep_txQuiet

theorem State.finish_txQuiet (s : State) (n : Nat) : s.TxQuiet ((s.abandon.respond .ok 0).limitRaised n) :=
  ⟨rfl, rfl, rfl, rfl, rfl, rfl⟩

/-- The abandonment, the answer and the limit on the record, after which at most two conditions are new. -/
theorem State.PollEffect.finish {n k : Nat} {s t : State} (h : s.PollEffect n k t) :
    s.PollEffect 2 k ((t.abandon.respond .ok 0).limitRaised s.out.raised.length) := by
  obtain ⟨es, -, hes⟩ := h.reports.raised
  rw [State.limitRaised_append (s := t.abandon.respond .ok 0) hes]
  exact { h with reports := ⟨⟨es.take 2, List.length_take_le .., rfl⟩, h.reports.ntf⟩ }

/-- POLL is refused before SETUP; after it, it drains, steps the role and finishes (42_arbitrator.md R195). -/
theorem execPoll_effect (s : State) :
    ∃ t, execPoll s = .next t ∧ s.PollEffect 2 1 t ∧ (s.role ≠ .master → s.TxQuiet t) := by
  cases hs : s.setupDone with
  | false =>
    have hfail := s.failCmd_effect .eNotSetup 0
    exact ⟨_, by rw [execPoll, if_pos hs], hfail.pollEffect.mono (by decide), fun _ => hfail.txQuiet⟩
  | true =>
    obtain ⟨u, hu, hdrain, hquiet, hrole⟩ := drain_effect s
    refine ⟨_, execPoll_setup hs hu, (hdrain.trans u.roleStep_effect).finish, fun hm => ?_⟩
    exact (hquiet.trans (State.roleStep_txQuiet (hrole ▸ hm))).trans (State.finish_txQuiet ..)

/-! ### RXI (10_state.md R51, 42_arbitrator.md R185 to R189) -/

/-- The state `t` with all that RXI writes put back to what it is in `s`. -/
def State.withRxiPart (t s : State) : State :=
  { t with cbSeen := s.cbSeen, rxaSt := s.rxaSt, rxaRem := s.rxaRem, rxaCb := s.rxaCb, rxRing := s.rxRing,
           winOpen := s.winOpen, winT0 := s.winT0, oppSeq := s.oppSeq, txRing := s.txRing, txBuf := s.txBuf,
           txLen := s.txLen, txIdx := s.txIdx, txMark0 := s.txMark0, txOpensWin := s.txOpensWin,
           txActive := s.txActive, out := s.out }

/-- The TX ring, the transmit engine and the opportunities are left alone. -/
abbrev State.TxKept (s t : State) : Prop :=
  t.oppSeq = s.oppSeq ∧ t.txRing = s.txRing ∧ t.txBuf = s.txBuf ∧ t.txLen = s.txLen ∧ t.txIdx = s.txIdx ∧
    t.txMark0 = s.txMark0 ∧ t.txOpensWin = s.txOpensWin ∧ t.txActive = s.txActive

theorem State.TxKept.trans {s t u : State} (h : s.TxKept t) (h' : t.TxKept u) : s.TxKept u := by
  obtain ⟨hopp, hring, hbuf, hlen, hidx, hmark, hopens, hact⟩ := h
  obtain ⟨hopp', hring', hbuf', hlen', hidx', hmark', hopens', hact'⟩ := h'
  exact ⟨hopp'.trans hopp, hring'.trans hring, hbuf'.trans hbuf, hlen'.trans hlen, hidx'.trans hidx,
    hmark'.trans hmark, hopens'.trans hopens, hact'.trans hact⟩

/-- The ring `r'` with its read index and the producer's copy of it put back to what they are in `r`. -/
def Ring.withReadPart (r' r : Ring) : Ring := { r' with rd := r.rd, rdSeen := r.rdSeen }

/-- `t` is `s` after writes of RXI's, with at most `n` conditions raised and no notification: the RX ring is produced
into only, the TX ring consumed from only, and in the roles that no master polls nothing is transmitted. -/
structure State.RxiEffect (n : Nat) (s t : State) : Prop where
  frame : t.withRxiPart s = s
  cbSeen : s.cbSeen = true → t.cbSeen = true
  winOpen : t.winOpen = true → s.winOpen = true
  rxRd : t.rxRing.rd = s.rxRing.rd
  txRing : t.txRing.withReadPart s.txRing = s.txRing
  unpolled : s.role = .idle ∨ s.role = .master → s.TxKept t
  reports : s.out.Reports n 0 t.out

theorem State.RxiEffect.refl (s : State) : s.RxiEffect 0 s :=
  ⟨rfl, id, id, rfl, rfl, fun _ => ⟨rfl, rfl, rfl, rfl, rfl, rfl, rfl, rfl⟩, .nothing rfl rfl⟩

theorem State.RxiEffect.mono {n n' : Nat} {s t : State} (h : s.RxiEffect n t) (hn : n ≤ n') :
    s.RxiEffect n' t :=
  { h with reports := h.reports.mono ⟨hn, Nat.le_refl _⟩ }

/-- What RXI does not write is as before. -/
theorem State.RxiEffect.same {α : Type} {n : Nat} {s t : State} (h : s.RxiEffect n t) (f : State → α) :
    f (t.withRxiPart s) = f s :=
  congrArg f h.frame

theorem State.RxiEffect.role {n : Nat} {s t : State} (h : s.RxiEffect n t) : t.role = s.role :=
  h.same State.role

theorem State.RxiEffect.trans {n n' : Nat} {s t u : State} (h : s.RxiEffect n t) (h' : t.RxiEffect n' u) :
    s.RxiEffect (n + n') u where
  frame := calc
    u.withRxiPart s = (u.withRxiPart t).withRxiPart s := rfl
    _ = s := by rw [h'.frame, h.frame]
  cbSeen hc := h'.cbSeen (h.cbSeen hc)
  winOpen hw := h.winOpen (h'.winOpen hw)
  rxRd := h'.rxRd.trans h.rxRd
  txRing := calc
    u.txRing.withReadPart s.txRing = (u.txRing.withReadPart t.txRing).withReadPart s.txRing := rfl
    _ = s.txRing := by rw [h'.txRing, h.txRing]
  unpolled hr := (h.unpolled hr).trans (h'.unpolled (h.role.symm ▸ hr))
  reports := h.reports.trans h'.reports

/-- Writes to the parser, the RX ring and the window alone. -/
theorem State.RxiEffect.receive {n : Nat} {s t : State} (hf : t.withRxiPart s = s)
    (hc : s.cbSeen = true → t.cbSeen = true) (hw : t.winOpen = true → s.winOpen = true)
    (hrd : t.rxRing.rd = s.rxRing.rd) (hk : s.TxKept t) (hr : s.out.Reports n 0 t.out) : s.RxiEffect n t := by
  have hring : t.txRing = s.txRing := by
    obtain ⟨-, hring, -⟩ := hk
    exact hring
  exact ⟨hf, hc, hw, hrd, by rw [hring]; rfl, fun _ => hk, hr⟩

/-- A device of the bus: the roles that a master polls. -/
abbrev State.polled (s : State) : Prop := s.role = .slave ∨ s.role = .slaveInit

/-- A transmission that a polled device starts. -/
theorem State.RxiEffect.transmit {s t : State} (hp : s.polled) (hf : t.withRxiPart s = s) (hc : t.cbSeen = s.cbSeen)
    (hw : t.winOpen = s.winOpen) (hrd : t.rxRing = s.rxRing) (hring : t.txRing.withReadPart s.txRing = s.txRing)
    (ho : t.out = s.out) : s.RxiEffect 0 t where
  frame := hf
  cbSeen := hc.trans
  winOpen := hw.symm.trans
  rxRd := by rw [hrd]
  txRing := hring
  unpolled hr := by
    rcases hp with hp | hp <;> rw [hp] at hr <;> rcases hr with hr | hr <;> cases hr
  reports := .nothing (by rw [ho]) (by rw [ho])

theorem State.reactPoll_effect (a : DevAddr) {s : State} (hp : s.polled) : s.RxiEffect 0 (s.reactPoll a) := by
  unfold State.reactPoll
  split
  · rcases State.readTx_cases { s with oppSeq := s.oppSeq + 1 } with ⟨-, h⟩ | ⟨-, m, r, hr, h⟩ <;> simp only [h]
    · exact .transmit hp rfl rfl rfl rfl rfl rfl
    · obtain ⟨-, -, rfl⟩ := Ring.tryRead_some.1 hr
      exact .transmit hp rfl rfl rfl rfl rfl rfl
  · exact .refl s

theorem State.reactAckreq_effect (a : DevAddr) {s : State} (hp : s.polled) : s.RxiEffect 0 (s.reactAckreq a) := by
  unfold State.reactAckreq
  split
  · exact .transmit hp rfl rfl rfl rfl rfl rfl
  · exact .refl s

theorem State.reactMsg_effect (cb : Byte) (a : DevAddr) (s : State) : s.RxiEffect 0 (s.reactMsg cb a) := by
  unfold State.reactMsg
  split
  · exact .receive rfl id id rfl ⟨rfl, rfl, rfl, rfl, rfl, rfl, rfl, rfl⟩ (.nothing rfl rfl)
  · exact .refl s

/-- A call byte raises its bad parity or the truncation of the Message it cuts, and only a polled device reacts. -/
theorem State.onCallByte_effect (s : State) (cb : Byte) {react : State → State}
    (hreact : ∀ u : State, u.polled → u.RxiEffect 0 (react u)) : s.RxiEffect 1 (s.onCallByte cb react) := by
  have hreset : s.RxiEffect 1 ({ s with cbSeen := true }.parserReset) := by
    rw [State.parserReset_eq]
    exact .receive rfl (fun _ => rfl) id rfl ⟨rfl, rfl, rfl, rfl, rfl, rfl, rfl, rfl⟩
      (State.cut_reports { s with cbSeen := true })
  unfold State.onCallByte
  split
  · exact (State.RxiEffect.refl s).mono (by decide)
  · split
    · exact .receive rfl id id rfl ⟨rfl, rfl, rfl, rfl, rfl, rfl, rfl, rfl⟩ (s.raise_reports _)
    · simp only
      split
      · exact hreset.trans (hreact _ ‹_›)
      · exact hreset

/-- A data byte raises at most one condition: a framing failure or an overflow of the RX ring. -/
theorem State.parse_effect (s : State) (b : Byte) : s.RxiEffect 1 (s.parse b) := by
  have hkept : s.TxKept s := ⟨rfl, rfl, rfl, rfl, rfl, rfl, rfl, rfl⟩
  cases hst : s.rxaSt with
  | idle | skip =>
    rw [State.parse_dropped b (by simp [hst])]
    exact (State.RxiEffect.refl s).mono (by decide)
  | header =>
    rcases State.parse_header b hst with ⟨-, h⟩ | ⟨-, -, h⟩ | ⟨-, -, h⟩ <;> rw [h]
    · exact .receive rfl id id rfl hkept (s.raise_reports _)
    · exact .receive rfl id id rfl hkept (s.raise_reports _)
    · exact .receive rfl id id (by simp) hkept (.nothing rfl rfl)
  | body =>
    rcases State.parse_body b hst with ⟨-, h⟩ | ⟨-, h⟩ <;> rw [h]
    · exact .receive rfl id id (by simp) hkept (.nothing rfl rfl)
    · exact .receive rfl id (by simp) (by simp) hkept (.nothing rfl rfl)

theorem State.onDataByte_effect (s : State) (b : Byte) : s.RxiEffect 1 (s.onDataByte b) := by
  have htime : s.RxiEffect 0 { s with winT0 := s.now } :=
    .receive rfl id id rfl ⟨rfl, rfl, rfl, rfl, rfl, rfl, rfl, rfl⟩ (.nothing rfl rfl)
  unfold State.onDataByte
  split
  · exact (State.RxiEffect.refl s).mono (by decide)
  · split
    · exact (htime.trans (State.parse_effect _ b)).mono (by decide)
    · exact s.parse_effect b

theorem execCbPoll_effect (p : Bool) (a : DevAddr) (s : State) :
    ∃ t, execCbPoll p a s = .next t ∧ s.RxiEffect 1 t :=
  ⟨_, rfl, s.onCallByte_effect _ fun _ => State.reactPoll_effect a⟩

theorem execCbAckreq_effect (p : Bool) (a : DevAddr) (s : State) :
    ∃ t, execCbAckreq p a s = .next t ∧ s.RxiEffect 1 t :=
  ⟨_, rfl, s.onCallByte_effect _ fun _ => State.reactAckreq_effect a⟩

theorem execCbMsg_effect (p : Bool) (a : DevAddr) (s : State) : ∃ t, execCbMsg p a s = .next t ∧ s.RxiEffect 1 t :=
  ⟨_, rfl, s.onCallByte_effect _ fun u _ => u.reactMsg_effect _ a⟩

theorem execCbReserved_effect (p : Bool) (a : DevAddr) (s : State) :
    ∃ t, execCbReserved p a s = .next t ∧ s.RxiEffect 1 t :=
  ⟨_, rfl, s.onCallByte_effect _ fun u _ => .refl u⟩

/-- RXI is the row of the byte's class, or of a data byte. -/
theorem execRxi_effect (mark : Bool) (b : Byte) (s : State) :
    ∃ t, execRxi mark b s = .next t ∧ s.RxiEffect 1 t := by
  unfold execRxi
  split
  · split
    · exact execCbPoll_effect ..
    · exact execCbAckreq_effect ..
    · exact execCbMsg_effect ..
    · exact execCbReserved_effect ..
  · exact ⟨_, rfl, s.onDataByte_effect b⟩

/-! ### TXI (10_state.md R51, 42_arbitrator.md R192) -/

/-- The state `t` with all that TXI writes put back to what it is in `s`. -/
def State.withTxiPart (t s : State) : State :=
  { t with txIdx := s.txIdx, txActive := s.txActive, txOpensWin := s.txOpensWin, winOpen := s.winOpen,
           winT0 := s.winT0, rxaSt := s.rxaSt, rxaCb := s.rxaCb, out := s.out }

/-- `t` is `s` after writes of TXI's: a transmission is only ended, a window only opened, and nothing reported. -/
structure State.TxiEffect (s t : State) : Prop where
  frame : t.withTxiPart s = s
  txActive : t.txActive = true → s.txActive = true
  txOpensWin : t.txOpensWin = true → s.txOpensWin = true
  winOpen : s.winOpen = true → t.winOpen = true
  reports : s.out.Reports 0 0 t.out

theorem State.endTx_effect (s : State) : s.TxiEffect s.endTx := by
  unfold State.endTx
  simp only
  split
  · exact ⟨rfl, nofun, nofun, fun _ => rfl, .nothing rfl rfl⟩
  · exact ⟨rfl, nofun, nofun, id, .nothing rfl rfl⟩

theorem execTxi_effect (s : State) : ∃ t, execTxi s = .next t ∧ s.TxiEffect t := by
  unfold execTxi
  split
  · exact ⟨s, rfl, rfl, id, id, id, .nothing rfl rfl⟩
  · split
    · exact ⟨_, rfl, rfl, id, id, id, .nothing rfl rfl⟩
    · exact ⟨_, rfl, s.endTx_effect⟩

/-! ### What any operation reports (60_exceptions.md R354) -/

theorem execSetup_reports (arg0 : BitVec 16) (arg1 : BitVec 8) (arg2 : BitVec 18) (s : State) :
    ∃ t, execSetup arg0 arg1 arg2 s = .next t ∧ s.out.Reports 1 0 t.out := by
  unfold execSetup
  split
  · exact ⟨_, rfl, .nothing rfl rfl⟩
  · exact ⟨_, rfl, (s.failCmd_effect _ _).reports⟩

theorem State.answer_reports (s : State) (x : OpResult) : s.out.Reports 0 0 (s.answer x).out :=
  .nothing rfl rfl

theorem State.setRing_reports (s : State) (q : RingId) (r : Ring) : s.out.Reports 0 0 (s.setRing q r).out := by
  cases q <;> exact .nothing rfl rfl

/-- No operation raises more than two conditions, or emits more than one notification. -/
theorem exec_reports (i : Instr) (s : State) : ∃ t, exec i s = .next t ∧ s.out.Reports 2 1 t.out := by
  have hframe := runFrame_effect i s
  cases i with
  | cbPoll p a => exact (execCbPoll_effect p a s).imp fun _ ⟨h, he⟩ => ⟨h, he.reports.mono (by decide)⟩
  | cbAckreq p a => exact (execCbAckreq_effect p a s).imp fun _ ⟨h, he⟩ => ⟨h, he.reports.mono (by decide)⟩
  | cbMsg p a => exact (execCbMsg_effect p a s).imp fun _ ⟨h, he⟩ => ⟨h, he.reports.mono (by decide)⟩
  | cbReserved p a => exact (execCbReserved_effect p a s).imp fun _ ⟨h, he⟩ => ⟨h, he.reports.mono (by decide)⟩
  | rxi mark b => exact (execRxi_effect mark b s).imp fun _ ⟨h, he⟩ => ⟨h, he.reports.mono (by decide)⟩
  | txi => exact (execTxi_effect s).imp fun _ ⟨h, he⟩ => ⟨h, he.reports.mono (by decide)⟩
  | setup arg0 arg1 arg2 =>
    exact (execSetup_reports arg0 arg1 arg2 s).imp fun _ ⟨h, hr⟩ => ⟨h, hr.mono (by decide)⟩
  | poll => exact (execPoll_effect s).imp fun _ ⟨h, he, _⟩ => ⟨h, he.reports⟩
  | setPower | getPower | getRole | locoClaim | locoBusyNote | pushDrive | pushFunc | getLocoInfo | getLocoFunc
  | pushTurnoutStatus | pushTurnoutCmd | setCvReadValue | setCvNack | setCvNackSc | pushFeedback | releaseSlot
  | pendTimeout | hostReserved =>
    exact (hostRow_effect rfl s).imp fun _ ⟨h, he⟩ => ⟨h, he.reports.mono (by decide)⟩
  | computeChecksum | verify | callByteParity | encodeFrame | isEmpty | isFull | requestBusy | holder =>
    exact ⟨_, rfl, (s.answer_reports _).mono (by decide)⟩
  | markBusy | release => exact ⟨_, rfl, (s.slots_effect _).reports.mono (by decide)⟩
  | appendByte | commit | abortWrite => exact ⟨_, rfl, (s.setRing_reports _ _).mono (by decide)⟩
  | beginWrite q =>
    simp only [exec, execBeginWrite]
    split
    · exact ⟨_, rfl, ((s.setRing_reports q _).trans (State.answer_reports ..)).mono (by decide)⟩
    · exact ⟨_, rfl, (s.answer_reports _).mono (by decide)⟩
  | tryRead q =>
    simp only [exec, execTryRead]
    split
    · exact ⟨_, rfl, ((s.setRing_reports q _).trans (State.answer_reports ..)).mono (by decide)⟩
    · exact ⟨_, rfl, (s.answer_reports _).mono (by decide)⟩
  | enqueue m =>
    simp only [exec, execEnqueue]
    rcases s.enqueueTx_cases m with ⟨-, h⟩ | ⟨-, r, hr, h⟩ <;> simp only [h]
    · exact ⟨_, rfl, (s.answer_reports _).mono (by decide)⟩
    · exact ⟨_, rfl, ((State.queued_effect hr).reports.trans (State.answer_reports ..)).mono (by decide)⟩
  | _ => exact hframe.imp fun _ ⟨h, he⟩ => ⟨h, he.reports⟩

/-! ### The statement -/

/-- What holds of a next state that an operation has, holds of every next state that it answers. -/
theorem holds_of_next {o : Host.Outcome State Fault Refusal} {P : State → Prop} (h : ∃ t, o = .next t ∧ P t)
    {t : State} (ht : o = .next t) : P t := by
  obtain ⟨u, hu, hp⟩ := h
  obtain rfl := Host.Outcome.next.inj (hu.symm.trans ht)
  exact hp

/-- Settles O57: each agent's effect names what it writes, and every operation's report is bounded. -/
theorem writersPerAgent : Obligations.WritersPerAgent := by
  refine ⟨fun mark b s t h => ?_, fun s t h => ?_, fun s t h => ?_, fun c s t h0 h1 h => ?_, fun i s t h => ?_⟩
  · obtain ⟨hframe, hseen, hwin, hrd, hring, hkept, hrep⟩ := holds_of_next (execRxi_effect mark b s) h
    exact ⟨hframe, hseen, hwin, hrd, hring, hkept, hrep.ntf_eq⟩
  · obtain ⟨hframe, hact, hopens, hwin, hrep⟩ := holds_of_next (execTxi_effect s) h
    exact ⟨hframe, hact, hopens, hwin, hrep.ntf_eq⟩
  · obtain ⟨he, hquiet⟩ := holds_of_next (execPoll_effect s) h
    exact ⟨he.same State.setupDone, he.same State.myAddr, he.same State.auto, he.same State.stepsDef,
      he.same State.notifyEn, he.same State.rxaRem, he.same State.rxaCb, he.rxMem, he.rxWr, he.cbSeen, he.winOpen,
      he.rxaSt, hquiet, he.reports.ntf⟩
  · obtain ⟨hframe, hrd, hrep⟩ := holds_of_next (hostRow_effect (decodeHost_isPlainHostRow h0 h1) s) h
    exact ⟨hframe, hrd, hrep.ntf_eq⟩
  · exact (holds_of_next (exec_reports i s) h).raised

end Sys2Proof.Machine
end

section
/-! PROOFS. The gray code of a ring index: successive codes differ in one bit, and the code converts back
(20_memory.md R86). -/

namespace Sys2Proof.Machine

/-! ### The reflected gray code of a number -/

/-- The reflected gray code of `v`, before the offset of a ring's capacity. -/
def grayBits (v : Nat) : Nat := v ^^^ (v >>> 1)

theorem grayCode_eq (cap p : Nat) : grayCode cap p = grayBits (p + grayOffset cap) := rfl

theorem grayBits_div_two (v : Nat) : grayBits v / 2 = grayBits (v / 2) := by
  simp [grayBits, Nat.shiftRight_one, Nat.xor_div_two]

theorem grayBits_mod_two (v : Nat) : grayBits v % 2 = (v + v / 2) % 2 := by
  simp [grayBits, Nat.shiftRight_one, Nat.xor_mod_two_eq]

theorem grayBits_testBit (v i : Nat) : (grayBits v).testBit i = (v.testBit i ^^ v.testBit (i + 1)) := by
  simp [grayBits, Nat.testBit_shiftRight, Nat.add_comm 1 i]

theorem grayBits_lt {v n : Nat} (hv : v < 2 ^ n) : grayBits v < 2 ^ n :=
  Nat.xor_lt_two_pow hv ((Nat.shiftRight_le v 1).trans_lt hv)

/-- Counting up by one turns one bit of the code: after an even number the last one, after an odd number one of the
code of its half. -/
theorem grayBits_succ (v : Nat) : ∃ k, grayBits (v + 1) = grayBits v ^^^ 2 ^ k := by
  induction v using Nat.strong_induction_on with
  | _ v ih =>
    have hdiv := grayBits_div_two v
    have hmod := grayBits_mod_two v
    have hdiv' := grayBits_div_two (v + 1)
    have hmod' := grayBits_mod_two (v + 1)
    rcases Nat.even_or_odd' v with ⟨m, rfl | rfl⟩
    · refine ⟨0, Nat.ext_div_mod (n := 2) ?_ ?_⟩
      · have hhalf : (2 * m + 1) / 2 = 2 * m / 2 := by omega
        rw [hdiv', hhalf, ← hdiv, Nat.xor_div_two]
        simp
      · rw [Nat.xor_mod_two_eq, hmod']
        omega
    · obtain ⟨k, hk⟩ := ih m (by omega)
      refine ⟨k + 1, Nat.ext_div_mod (n := 2) ?_ ?_⟩
      · have hhalf : (2 * m + 1) / 2 = m := by omega
        have hhalf' : (2 * m + 1 + 1) / 2 = m + 1 := by omega
        rw [hdiv', hhalf', hk, Nat.xor_div_two, hdiv, hhalf, Nat.pow_succ, Nat.mul_div_cancel _ (by decide)]
      · rw [Nat.xor_mod_two_eq, hmod', Nat.pow_succ]
        omega

/-- The code is reflected: numbers that mirror each other in the range of `n + 1` bits have codes that differ in the
highest bit only. -/
theorem grayBits_mirror {w n : Nat} (hw : w < 2 ^ (n + 1)) :
    grayBits (2 ^ (n + 1) - (w + 1)) = grayBits w ^^^ 2 ^ n := by
  refine Nat.eq_of_testBit_eq fun i => ?_
  rw [Nat.testBit_xor, grayBits_testBit, grayBits_testBit, Nat.testBit_two_pow_sub_succ hw,
    Nat.testBit_two_pow_sub_succ hw, Nat.testBit_two_pow]
  have hhigh {j : Nat} (hj : n + 1 ≤ j) : w.testBit j = false :=
    Nat.testBit_lt_two_pow (hw.trans_le (Nat.pow_le_pow_right (by decide) hj))
  rcases Nat.lt_trichotomy i n with hi | rfl | hi
  · simp [hi, Nat.lt_succ_of_lt hi, hi.ne']
  · simp [hhigh]
  · simp [hhigh hi, hhigh (Nat.le_succ_of_le hi), hi.ne, Nat.not_lt.2 hi, Nat.not_lt.2 hi.le]

/-- Reading back `n` bits of the code leaves what lies above them. -/
theorem grayValue_grayBits (v n : Nat) : grayValue (grayBits v) n = v ^^^ (v >>> n) := by
  induction n with
  | zero => simp [grayValue]
  | succ n ih =>
    calc grayValue (grayBits v) n ^^^ (grayBits v >>> n)
        = (v ^^^ (v >>> n)) ^^^ ((v >>> n) ^^^ (v >>> (1 + n))) := by
          rw [ih, grayBits, Nat.shiftRight_xor_distrib, ← Nat.shiftRight_add]
      _ = v ^^^ (v >>> (n + 1)) := by
          rw [Nat.xor_assoc, Nat.xor_xor_cancel_left, Nat.add_comm 1 n]

theorem grayValue_grayBits_of_lt {v n : Nat} (hv : v < 2 ^ n) : grayValue (grayBits v) n = v := by
  rw [grayValue_grayBits, Nat.shiftRight_eq_zero v n hv, Nat.xor_zero]

/-- Codes of `n` bits that differ in one bit differ in one of the `n`. -/
theorem lt_of_eq_xor_two_pow {a b n k : Nat} (ha : a < 2 ^ n) (hb : b < 2 ^ n) (h : b = a ^^^ 2 ^ k) : k < n := by
  have hpow : 2 ^ k = a ^^^ b := by rw [h, Nat.xor_xor_cancel_left]
  have hlt : 2 ^ k < 2 ^ n := hpow ▸ Nat.xor_lt_two_pow ha hb
  exact (Nat.pow_lt_pow_iff_right (by decide)).1 hlt

/-! ### The codes of a ring's indices -/

/-- The offset puts the `2 * cap` index values in the middle of the range of their width. -/
theorem grayOffset_centres {cap : Nat} (hc : 1 ≤ cap) :
    2 ^ indexWidth cap = grayOffset cap + 2 * cap + grayOffset cap := by
  have hfit : 2 * cap - 1 < 2 ^ indexWidth cap := Nat.lt_log2_self
  have heven : 2 ^ indexWidth cap = 2 ^ (2 * cap - 1).log2 * 2 := Nat.pow_succ ..
  unfold grayOffset
  omega

theorem index_offset_lt {cap p : Nat} (hp : p < 2 * cap) : p + grayOffset cap < 2 ^ indexWidth cap := by
  have hmid := grayOffset_centres (cap := cap) (by omega)
  omega

theorem grayCode_lt {cap p : Nat} (hp : p < 2 * cap) : grayCode cap p < 2 ^ indexWidth cap :=
  grayBits_lt (index_offset_lt hp)

theorem grayIndex_grayCode {cap p : Nat} (hp : p < 2 * cap) : grayIndex cap (grayCode cap p) = p := by
  rw [grayIndex, grayCode_eq, grayValue_grayBits_of_lt (index_offset_lt hp), Nat.add_sub_cancel]

/-- The last index value mirrors the first one, so the wrap turns the highest bit. -/
theorem grayCode_wrap {cap : Nat} (hc : 1 ≤ cap) :
    grayCode cap (2 * cap - 1) = grayCode cap 0 ^^^ 2 ^ (indexWidth cap - 1) := by
  have hmid := grayOffset_centres hc
  have hwidth : indexWidth cap - 1 + 1 = indexWidth cap := Nat.sub_add_cancel (Nat.le_add_left ..)
  have hfirst : 0 + grayOffset cap < 2 ^ (indexWidth cap - 1 + 1) := by
    rw [hwidth]
    exact index_offset_lt (by omega)
  have hlast : 2 * cap - 1 + grayOffset cap = 2 ^ (indexWidth cap - 1 + 1) - (0 + grayOffset cap + 1) := by
    rw [hwidth]
    omega
  rw [grayCode_eq, hlast, grayBits_mirror hfirst, grayCode_eq]

theorem grayCode_idxNext {cap p : Nat} (hp : p < 2 * cap) :
    ∃ k, grayCode cap (idxNext cap p) = grayCode cap p ^^^ 2 ^ k := by
  by_cases hlast : p + 1 < 2 * cap
  · rw [idxNext, Nat.mod_eq_of_lt hlast, grayCode_eq, Nat.add_right_comm]
    exact grayBits_succ _
  · obtain rfl : p = 2 * cap - 1 := by omega
    have hnext : idxNext cap (2 * cap - 1) = 0 := by
      rw [idxNext, Nat.sub_add_cancel (by omega), Nat.mod_self]
    exact ⟨indexWidth cap - 1, by rw [hnext, grayCode_wrap (by omega), Nat.xor_assoc, Nat.xor_self, Nat.xor_zero]⟩

/-- Settles O8: one bit turns at each increment and at the wrap, and reading the code back undoes it. -/
theorem grayCodeOfIndex : Obligations.GrayCodeOfIndex := by
  refine ⟨fun cap p hc hp => ⟨?_, grayCode_lt hp, grayIndex_grayCode hp⟩, by decide⟩
  obtain ⟨k, hk⟩ := grayCode_idxNext hp
  have hnext : idxNext cap p < 2 * cap := Nat.mod_lt _ (by omega)
  exact ⟨k, lt_of_eq_xor_two_pow (grayCode_lt hp) (grayCode_lt hnext) hk, hk⟩

end Sys2Proof.Machine
end

section
/-! PROOFS. Coinciding events are taken RXI, TXI, HOST, each in a step of its own (20_memory.md R88, 60_exceptions.md
R354). -/

namespace Sys2Proof.Machine

/-! ### One event of an instant -/

/-- A step takes the first instant's next event and leaves the instant without it. -/
theorem step_take {s : State} {i i' : Instant} {e : PortEvent} {rest : List Instant} (hin : s.inputs = i :: rest)
    (htake : i.take = some (e, i')) : step s = exec (decodePort e) (s.accept i.now e (i' :: rest)) :=
  step_event (by simp [hin, nextEvent, htake])

/-- A received byte is one operation, whether its mark decodes it to a call byte's row or to RXI. -/
theorem exec_decodePort_rx (mark : Bool) (b : Byte) (s : State) :
    exec (decodePort (.rx mark b)) s = execRxi mark b s := by
  cases mark with
  | false => rfl
  | true =>
    simp only [decodePort, decodeCallByte, execRxi, if_true]
    cases cbClass b <;> rfl

/-- With a byte received, the step is RXI's, and the rest of the instant stays. -/
theorem step_rx {s : State} {now : Nat} {mark : Bool} {b : Byte} {r : Bool} {c : Option HostCmd} {rest : List Instant}
    (hin : s.inputs = { now := now, rx := some (mark, b), txReady := r, cmd := c } :: rest) :
    ∃ t, exec (decodePort (.rx mark b)) (s.accept now (.rx mark b)
        ({ now := now, rx := none, txReady := r, cmd := c } :: rest)) = .next t ∧
      step s = .next t ∧ t.inputs = { now := now, rx := none, txReady := r, cmd := c } :: rest := by
  have hstep := step_take hin rfl
  obtain ⟨t, hexec, heff⟩ := execRxi_effect mark b
    (s.accept now (.rx mark b) ({ now := now, rx := none, txReady := r, cmd := c } :: rest))
  rw [← exec_decodePort_rx] at hexec
  exact ⟨t, hexec, hstep.trans hexec, (heff.same State.inputs).trans (State.accept_inputs ..)⟩

/-- With no byte received and the transmitter ready, the step is TXI's, and the rest of the instant stays. -/
theorem step_txReady {s : State} {now : Nat} {c : Option HostCmd} {rest : List Instant}
    (hin : s.inputs = { now := now, rx := none, txReady := true, cmd := c } :: rest) :
    ∃ t, exec .txi (s.accept now .txReady ({ now := now, rx := none, txReady := false, cmd := c } :: rest)) = .next t ∧
      step s = .next t ∧ t.inputs = { now := now, rx := none, txReady := false, cmd := c } :: rest := by
  have hstep := step_take hin rfl
  obtain ⟨t, hexec, heff⟩ :=
    execTxi_effect (s.accept now .txReady ({ now := now, rx := none, txReady := false, cmd := c } :: rest))
  exact ⟨t, hexec, hstep.trans hexec, (congrArg State.inputs heff.frame).trans (State.accept_inputs ..)⟩

/-- With a host command alone, the step is the command's. -/
theorem step_cmd {s : State} {now : Nat} {c : HostCmd} {rest : List Instant}
    (hin : s.inputs = { now := now, rx := none, txReady := false, cmd := some c } :: rest) :
    ∃ t, exec (decodeHost c) (s.accept now (.cmd c)
        ({ now := now, rx := none, txReady := false, cmd := none } :: rest)) = .next t ∧ step s = .next t := by
  have hstep := step_take hin rfl
  obtain ⟨t, hexec, -⟩ := exec_reports (decodeHost c)
    (s.accept now (.cmd c) ({ now := now, rx := none, txReady := false, cmd := none } :: rest))
  exact ⟨t, hexec, hstep.trans hexec⟩

/-! ### The statement -/

/-- Settles O56: each step takes one event and hands the rest of the instant to the next step. -/
theorem coincidingEventsInOrder : Obligations.CoincidingEventsInOrder := by
  intro s now mark b c rest
  refine ⟨fun hin => ?_, fun hin => ?_, fun hin => ?_, fun hin => ?_⟩
  · obtain ⟨s1, hrx, hstep, hin1⟩ := step_rx hin
    obtain ⟨s2, htx, hstep1, hin2⟩ := step_txReady hin1
    obtain ⟨s3, hcmd, hstep2⟩ := step_cmd hin2
    exact ⟨s1, s2, s3, hrx, htx, hcmd, hstep, hstep1, hstep2⟩
  · obtain ⟨s1, hrx, hstep, hin1⟩ := step_rx hin
    obtain ⟨s2, htx, hstep1, -⟩ := step_txReady hin1
    exact ⟨s1, s2, hrx, htx, hstep, hstep1⟩
  · obtain ⟨s1, hrx, hstep, hin1⟩ := step_rx hin
    obtain ⟨s2, hcmd, hstep1⟩ := step_cmd hin1
    exact ⟨s1, s2, hrx, hcmd, hstep, hstep1⟩
  · obtain ⟨s1, htx, hstep, hin1⟩ := step_txReady hin
    obtain ⟨s2, hcmd, hstep1⟩ := step_cmd hin1
    exact ⟨s1, s2, htx, hcmd, hstep, hstep1⟩

end Sys2Proof.Machine
end

section
/-! PROOFS. Decode and encode agree: operand fields, call bytes, the rows of the default tables, host commands
(30_encoding.md R103 to R126). -/

namespace Sys2Proof.Machine

/-! ### Operand fields read back from the bytes written for them (30_encoding.md R110 to R115) -/

@[simp] theorem locoOf_addressBytes (a : LocoAddr) : locoOf (locoHigh a) (locoLow a) = a := by
  have hhigh : (locoHigh a).extractLsb' 0 6 = a.extractLsb' 8 6 := by
    simp only [locoHigh]
    generalize a.extractLsb' 8 6 = high
    split <;> revert high <;> decide
  rw [locoOf, hhigh]
  exact BitVec.extractLsb'_append_extractLsb' (w := 6) (len := 8)

/-- `D1` of a turnout command holds the low bits of the number, the position and the active bit. -/
theorem turnoutD1_fields (t : BitVec 10) (pos act : Bool) :
    (turnoutD1 t pos act).extractLsb' 1 2 = t.extractLsb' 0 2 ∧ turnoutPos (turnoutD1 t pos act) = pos ∧
      turnoutActive (turnoutD1 t pos act) = act := by
  simp only [turnoutD1]
  generalize t.extractLsb' 0 2 = low
  revert low pos act
  decide

@[simp] theorem turnoutOf_commandBytes (t : BitVec 10) (pos act : Bool) :
    turnoutOf (turnoutGroup t) (turnoutD1 t pos act) = t := by
  rw [turnoutOf, (turnoutD1_fields t pos act).1]
  exact BitVec.extractLsb'_append_extractLsb' (w := 8) (len := 2)

@[simp] theorem turnoutPos_turnoutD1 (t : BitVec 10) (pos act : Bool) : turnoutPos (turnoutD1 t pos act) = pos :=
  (turnoutD1_fields t pos act).2.1

@[simp] theorem turnoutActive_turnoutD1 (t : BitVec 10) (pos act : Bool) : turnoutActive (turnoutD1 t pos act) = act :=
  (turnoutD1_fields t pos act).2.2

@[simp] theorem pomModeTag_pomMode (tag : BitVec 6) (cv : BitVec 10) : pomModeTag (pomMode tag cv) = tag :=
  BitVec.extractLsb'_append_eq_left

@[simp] theorem pomCv_pomMode (tag : BitVec 6) (cv : BitVec 10) :
    pomCv (pomMode tag cv) (cv.extractLsb' 0 8) = cv := by
  rw [pomCv, pomMode, BitVec.extractLsb'_append_eq_right]
  exact BitVec.extractLsb'_append_extractLsb' (w := 2) (len := 8)

@[simp] theorem pomBitByte_pos (pos : BitVec 3) (val : Bool) : (pomBitByte pos val).extractLsb' 0 3 = pos := by
  revert pos val
  decide

@[simp] theorem pomBitByte_val (pos : BitVec 3) (val : Bool) : (pomBitByte pos val)[3] = val := by
  revert pos val
  decide

/-- The bits of a function group stand at the low end of its byte (30_encoding.md R112). -/
theorem groupBits_setWidth {n : Nat} (hn : n ≤ 8) (fb : BitVec n) : (fb.setWidth 8).extractLsb' 0 n = fb := by
  rw [← BitVec.setWidth_eq_extractLsb' hn, BitVec.setWidth_setWidth_of_le fb hn, BitVec.setWidth_eq]

/-! ### Call bytes (30_encoding.md R103, R105) -/

@[simp] theorem cbClass_mkCb (cls : CbClass) (a : DevAddr) : cbClass (mkCb cls a) = cls := by
  cases cls <;> revert a <;> decide

@[simp] theorem cbAddr_mkCb (cls : CbClass) (a : DevAddr) : cbAddr (mkCb cls a) = a := by
  cases cls <;> revert a <;> decide

@[simp] theorem cbClass_rawCallByte (cls : CbClass) (p : Bool) (a : DevAddr) :
    cbClass (rawCallByte cls p a) = cls := by
  cases cls <;> revert p a <;> decide

@[simp] theorem cbParityBit_rawCallByte (cls : CbClass) (p : Bool) (a : DevAddr) :
    cbParityBit (rawCallByte cls p a) = p := by
  cases cls <;> revert p a <;> decide

@[simp] theorem cbAddr_rawCallByte (cls : CbClass) (p : Bool) (a : DevAddr) : cbAddr (rawCallByte cls p a) = a := by
  cases cls <;> revert p a <;> decide

theorem rawCallByte_fields (b : Byte) : rawCallByte (cbClass b) (cbParityBit b) (cbAddr b) = b := by
  revert b
  decide

/-- A marked byte is read as the row of its class, with its parity bit and its address. -/
theorem decodeCallByte_eq (b : Byte) : decodeCallByte b = callRow (cbClass b) (cbParityBit b) (cbAddr b) := by
  cases h : cbClass b <;> simp only [decodeCallByte, callRow, h]

theorem decodeCallByte_rawCallByte (cls : CbClass) (p : Bool) (a : DevAddr) :
    decodeCallByte (rawCallByte cls p a) = callRow cls p a := by
  simp [decodeCallByte_eq]

/-- Settles O2: a call byte is its class, its parity bit and its address, and nothing else. -/
theorem callByteRowsPartition : Obligations.CallByteRowsPartition :=
  ⟨decodeCallByte_rawCallByte, fun b =>
    ⟨cbClass b, cbParityBit b, cbAddr b, decodeCallByte_eq b, rawCallByte_fields b⟩⟩

/-! ### A Message read in the direction of its call byte (30_encoding.md R117) -/

@[simp] theorem frameData_messageOf (cb hdr : Byte) (data : List Byte) : frameData (messageOf cb hdr data) = data := by
  simp [frameData, messageOf, encodeFrame]

@[simp] theorem byteAt_messageOf_callByte (cb hdr : Byte) (data : List Byte) : byteAt (messageOf cb hdr data) 0 = cb := rfl

@[simp] theorem byteAt_messageOf_header (cb hdr : Byte) (data : List Byte) : byteAt (messageOf cb hdr data) 1 = hdr := rfl

theorem decodeFrame_messageOf_poll (dev : DevAddr) (hdr : Byte) (data : List Byte) :
    decodeFrame (messageOf (mkCb .poll dev) hdr data) = .ok (decodeDm defaultHdrMap dev hdr data) := by
  simp [decodeFrame, decodeFrameBy]

theorem decodeFrame_messageOf_msg (dev : DevAddr) (hdr : Byte) (data : List Byte) :
    decodeFrame (messageOf (mkCb .msg dev) hdr data) = .ok (decodeMd defaultHdrMap dev hdr data) := by
  simp [decodeFrame, decodeFrameBy]

/-- A device's frame decodes to what its row of the default table says. -/
theorem decode_dmCode {dev : DevAddr} {hdr : Byte} {data : List Byte} {i : Instr} {c : Code}
    (hc : dmCode dev hdr data = some c) (hrow : decodeDm defaultHdrMap dev hdr data = i) : decode c = .ok i := by
  cases hc
  rw [← hrow]
  exact decodeFrame_messageOf_poll dev hdr data

/-- A master's frame decodes to what its row of the default table says. -/
theorem decode_mdCode {dev : DevAddr} {hdr : Byte} {data : List Byte} {i : Instr} {c : Code}
    (hc : mdCode dev hdr data = some c) (hrow : decodeMd defaultHdrMap dev hdr data = i) : decode c = .ok i := by
  cases hc
  rw [← hrow]
  exact decodeFrame_messageOf_msg dev hdr data

/-! ### Turnout frames (30_encoding.md R113) -/

theorem decodeDm_turnoutStatusReq (dev : DevAddr) (grp d1 : Byte) :
    decodeDm defaultHdrMap dev 0x42 [grp, d1] = .turnoutStatusReq dev grp (d1.getLsbD 0) := rfl

theorem decodeDm_turnoutCmd (dev : DevAddr) (d0 d1 : Byte) :
    decodeDm defaultHdrMap dev 0x52 [d0, d1] =
      .turnoutCmd dev (turnoutOf d0 d1) (turnoutPos d1) (turnoutActive d1) := rfl

theorem decodeMd_turnoutCmdM (dev : DevAddr) (d0 d1 : Byte) :
    decodeMd defaultHdrMap dev 0x52 [d0, d1] =
      .turnoutCmdM dev (turnoutOf d0 d1) (turnoutPos d1) (turnoutActive d1) := rfl

/-! ### POM frames: the row is chosen by the tag in the fourth data byte (30_encoding.md R115) -/

theorem decodeDm_pomByte {mode : Byte} (htag : pomModeTag mode = 0b111011) (dev : DevAddr) (ah al cvl val : Byte) :
    decodeDm defaultHdrMap dev 0xE6 [0x30, ah, al, mode, cvl, val] =
      .pomByte dev (locoOf ah al) (pomCv mode cvl) val := by
  have hrow : defaultHdrMap.dmRow 0xE6 [0x30, ah, al, mode, cvl, val] =
      some ⟨0xE6, some 0x30, some 0b111011, .pomByte, [1, 2, 3, 4, 5]⟩ := by
    simp [HdrMap.dmRow, defaultHdrMap, dmRows, HdrRow.matches, byteAt, htag]
  simp only [decodeDm, dmKindBy, hrow, Option.map_some, Option.getD_some, HdrRow.operands]
  rfl

theorem decodeDm_pomBit {mode : Byte} (htag : pomModeTag mode = 0b111010) (dev : DevAddr) (ah al cvl b : Byte) :
    decodeDm defaultHdrMap dev 0xE6 [0x30, ah, al, mode, cvl, b] =
      .pomBit dev (locoOf ah al) (pomCv mode cvl) (b.extractLsb' 0 3) (b.getLsbD 3) := by
  have hrow : defaultHdrMap.dmRow 0xE6 [0x30, ah, al, mode, cvl, b] =
      some ⟨0xE6, some 0x30, some 0b111010, .pomBit, [1, 2, 3, 4, 5]⟩ := by
    simp [HdrMap.dmRow, defaultHdrMap, dmRows, HdrRow.matches, byteAt, htag]
  simp only [decodeDm, dmKindBy, hrow, Option.map_some, Option.getD_some, HdrRow.operands]
  rfl

/-! ### The catch-all rows (30_encoding.md R119, R121, R126) -/

theorem decodeDm_unknown {hdr : Byte} {data : List Byte} (hkind : dmKind hdr data = .unknown) (dev : DevAddr) :
    decodeDm defaultHdrMap dev hdr data = .dmUnknown dev hdr data := by
  simp only [decodeDm, show dmKindBy defaultHdrMap hdr data = .unknown from hkind]

theorem decodeMd_ignored {hdr : Byte} {data : List Byte} (hkind : mdKind hdr data = .ignored) (dev : DevAddr) :
    decodeMd defaultHdrMap dev hdr data = .mdIgnored dev hdr data := by
  simp only [decodeMd, show mdKindBy defaultHdrMap hdr data = .ignored from hkind]

/-- A code from 19 on is reserved, whatever the arguments. -/
theorem decodeHost_reserved (c : HostCmd) (hop : 19 ≤ c.op.toNat) : decodeHost c = .hostReserved c.op := by
  obtain ⟨k, hk⟩ := Nat.exists_eq_add_of_le' hop
  simp only [decodeHost, hk]

/-! ### The statement -/

/-- Bits at a port decode to what the port's decoder says. -/
theorem decode_portCode {e : PortEvent} {i : Instr} {c : Code} (hc : some (Code.port e) = some c)
    (hrow : decodePort e = i) : decode c = .ok i := by
  cases hc
  exact decode_port_ok.2 hrow

/-- Settles O1: the bits of each row are read by that row, and each operand field is read back from the bytes written
for it. -/
theorem decodeOfEncode : Obligations.DecodeOfEncode := by
  intro i c hwf hc
  cases i with
  | cbPoll p a | cbAckreq p a | cbMsg p a | cbReserved p a =>
    exact decode_portCode hc (decodeCallByte_rawCallByte _ p a)
  | ackResp dev | pwrServiceReq dev | devInit dev | pwrOffReq dev | pwrOnReq dev | estopReq dev
  | cvReadDirect dev cv | cvWriteDirect dev cv val => exact decode_dmCode hc rfl
  | turnoutStatusReq dev grp nib =>
    refine decode_dmCode hc ((decodeDm_turnoutStatusReq ..).trans ?_)
    cases nib <;> rfl
  | turnoutCmd dev t pos act =>
    refine decode_dmCode hc ((decodeDm_turnoutCmd ..).trans ?_)
    simp
  | locoInfoReq dev loco | locoFuncReq dev loco =>
    exact decode_dmCode hc (congrArg _ (locoOf_addressBytes loco).symm).symm
  | locoDrive14 dev loco b | locoDrive27 dev loco b | locoDrive28 dev loco b | locoDrive128 dev loco b
  | locoFuncG4 dev loco b | locoFuncG5 dev loco b =>
    exact decode_dmCode hc (congrArg₂ _ (locoOf_addressBytes loco).symm rfl).symm
  | locoFuncG1 dev loco fb | locoFuncG2 dev loco fb | locoFuncG3 dev loco fb =>
    exact decode_dmCode hc (congrArg₂ _ (locoOf_addressBytes loco).symm (groupBits_setWidth (by decide) fb).symm).symm
  | pomByte dev loco cv val =>
    refine decode_dmCode hc ((decodeDm_pomByte (pomModeTag_pomMode _ cv) ..).trans ?_)
    simp
  | pomBit dev loco cv pos val =>
    refine decode_dmCode hc ((decodeDm_pomBit (pomModeTag_pomMode _ cv) ..).trans ?_)
    simp
  | dmUnknown dev hdr data =>
    simp only [Instr.WellFormed, Bool.and_eq_true, beq_iff_eq] at hwf
    obtain ⟨-, hkind⟩ := hwf
    exact decode_dmCode hc (decodeDm_unknown hkind dev)
  | turnoutFb dev d0 d1 | bcPwrOff dev | bcPwrOn dev | bcService dev | bcEstop dev | cvResult dev cv val =>
    exact decode_mdCode hc rfl
  | turnoutCmdM dev t pos act =>
    refine decode_mdCode hc ((decodeMd_turnoutCmdM ..).trans ?_)
    simp
  | locoDrive14M dev loco b | locoDrive27M dev loco b | locoDrive28M dev loco b | locoDrive128M dev loco b
  | locoFuncG4M dev loco b | locoFuncG5M dev loco b =>
    exact decode_mdCode hc (congrArg₂ _ (locoOf_addressBytes loco).symm rfl).symm
  | locoFuncG1M dev loco fb | locoFuncG2M dev loco fb | locoFuncG3M dev loco fb =>
    exact decode_mdCode hc (congrArg₂ _ (locoOf_addressBytes loco).symm (groupBits_setWidth (by decide) fb).symm).symm
  | mdIgnored dev hdr data =>
    simp only [Instr.WellFormed, Bool.and_eq_true, beq_iff_eq] at hwf
    obtain ⟨-, hkind⟩ := hwf
    exact decode_mdCode hc (decodeMd_ignored hkind dev)
  | setup | poll | setPower | getPower | getRole | locoClaim | locoBusyNote | pushDrive | pushFunc | getLocoInfo
  | getLocoFunc | pushTurnoutStatus | pushTurnoutCmd | setCvReadValue | setCvNack | setCvNackSc | pushFeedback
  | releaseSlot | pendTimeout | txi => exact decode_portCode hc rfl
  | hostReserved op =>
    have hop : 19 ≤ op.toNat := of_decide_eq_true hwf
    exact decode_portCode hc (decodeHost_reserved _ hop)
  | rxi mark b =>
    cases mark with
    | true => cases hwf
    | false => exact decode_portCode hc rfl
  | computeChecksum | verify | callByteParity | encodeFrame | beginWrite | appendByte | commit | abortWrite | tryRead
  | isEmpty | isFull | enqueue | requestBusy | markBusy | release | holder => cases hc

end Sys2Proof.Machine
end

section
/-! PROOFS. The words written out from the spec, and the bytes, payloads and codes of what the CORE emits
(30_encoding.md R110, R118 to R128). -/

namespace Sys2Proof.Machine

/-! ### Words written out (30_encoding.md R118, R120, R126) -/

/-- The host codes 0 to 18, each with the arguments its command uses. -/
theorem decode_hostCodes (a0 : BitVec 16) (a1 : BitVec 8) (a2 : BitVec 18) :
    (List.range 19).map (fun k => decodeHost { op := BitVec.ofNat 5 k, arg0 := a0, arg1 := a1, arg2 := a2 }) =
      [.setup a0 a1 a2, .poll, .setPower a0, .getPower, .getRole, .locoClaim a0, .locoBusyNote a0, .pushDrive a0 a1 a2,
       .pushFunc a0 a1 a2, .getLocoInfo a0, .getLocoFunc a0, .pushTurnoutStatus a0, .pushTurnoutCmd a0 a1,
       .setCvReadValue a0 a1, .setCvNack, .setCvNackSc, .pushFeedback a0, .releaseSlot a0, .pendTimeout a0] := rfl

/-- Settles O3: the words one by one, and the host codes by the decoder of the command port. -/
theorem writtenWordsDecode : Obligations.WrittenWordsDecode := by
  refine ⟨by decide, by decide, by decide, by decide, by decide, by decide, by decide, by decide, by decide, by decide,
    fun a0 a1 a2 => ⟨?_, fun op hop => ?_⟩, rfl, rfl⟩
  · exact congrArg (List.map Except.ok) (decode_hostCodes a0 a1 a2)
  · exact decode_port_ok.2 (decodeHost_reserved _ hop)

/-! ### Concatenated fields as numbers (30_encoding.md R128, 42_arbitrator.md R184) -/

/-- The last field stands in the least significant bits. -/
theorem toNat_append_eq {m n : Nat} (x : BitVec m) (y : BitVec n) : (x ++ y).toNat = x.toNat * 2 ^ n + y.toNat := by
  rw [BitVec.toNat_append, ← Nat.shiftLeft_add_eq_or_of_lt y.isLt, Nat.shiftLeft_eq]

/-- The fields of a payload keep their value, zeros on the left. -/
theorem toNat_payload {n : Nat} (hn : n ≤ 32) (x : BitVec n) : (x.setWidth 32).toNat = x.toNat :=
  BitVec.toNat_setWidth_of_le hn

/-! ### Payloads, kind by kind (30_encoding.md R128) -/

theorem payload_drive (k : Steps) (a : LocoAddr) (spd : Byte) :
    (Notification.drive k a spd).payload.toNat = a.toNat * 256 + spd.toNat :=
  (toNat_payload (by decide) _).trans (toNat_append_eq a spd)

theorem kind_drive (k : Steps) (a : LocoAddr) (spd : Byte) : (Notification.drive k a spd).kind = 1 + stepsNo k := by
  cases k <;> rfl

theorem payload_funcG1 (a : LocoAddr) (fb : BitVec 5) :
    (Notification.funcG1 a fb).payload.toNat = a.toNat * 32 + fb.toNat :=
  (toNat_payload (by decide) _).trans (toNat_append_eq a fb)

theorem payload_funcG2 (a : LocoAddr) (fb : BitVec 4) :
    (Notification.funcG2 a fb).payload.toNat = a.toNat * 16 + fb.toNat :=
  (toNat_payload (by decide) _).trans (toNat_append_eq a fb)

theorem payload_funcG3 (a : LocoAddr) (fb : BitVec 4) :
    (Notification.funcG3 a fb).payload.toNat = a.toNat * 16 + fb.toNat :=
  (toNat_payload (by decide) _).trans (toNat_append_eq a fb)

theorem payload_funcGen (a : LocoAddr) (g : BitVec 3) (fb : Byte) :
    (Notification.funcGen a g fb).payload.toNat = a.toNat * 2048 + g.toNat * 256 + fb.toNat := by
  rw [Notification.payload, toNat_payload (by decide), toNat_append_eq, toNat_append_eq]
  omega

theorem payload_turnoutInfo (grp : Byte) (nib : Bool) :
    (Notification.turnoutInfo grp nib).payload.toNat = grp.toNat * 2 + nib.toNat := by
  rw [Notification.payload, toNat_payload (by decide), toNat_append_eq, BitVec.toNat_ofBool]
  rfl

theorem payload_turnoutCmd (t : BitVec 10) (pos act : Bool) :
    (Notification.turnoutCmd t pos act).payload.toNat = t.toNat * 4 + pos.toNat * 2 + act.toNat := by
  rw [Notification.payload, toNat_payload (by decide), toNat_append_eq, toNat_append_eq, BitVec.toNat_ofBool,
    BitVec.toNat_ofBool]
  omega

theorem payload_feedback (d0 d1 : Byte) :
    (Notification.feedback d0 d1).payload.toNat = d0.toNat * 256 + d1.toNat :=
  (toNat_payload (by decide) _).trans (toNat_append_eq d0 d1)

theorem payload_cvWrite (cv val : Byte) : (Notification.cvWrite cv val).payload.toNat = cv.toNat * 256 + val.toNat :=
  (toNat_payload (by decide) _).trans (toNat_append_eq cv val)

theorem payload_pomByte (a : LocoAddr) (cv : BitVec 10) (val : Byte) :
    (Notification.pomByte a cv val).payload.toNat = a.toNat * 262144 + cv.toNat * 256 + val.toNat := by
  rw [Notification.payload, toNat_append_eq, toNat_append_eq]
  omega

theorem payload_pomBit (a : LocoAddr) (cv : BitVec 10) (pos : BitVec 3) (val : Bool) :
    (Notification.pomBit a cv pos val).payload.toNat =
      a.toNat * 16384 + cv.toNat * 16 + pos.toNat * 2 + val.toNat := by
  rw [Notification.payload, toNat_payload (by decide), toNat_append_eq, toNat_append_eq, toNat_append_eq,
    BitVec.toNat_ofBool]
  omega

theorem payload_cvRead (cv : Byte) : (Notification.cvRead cv).payload.toNat = cv.toNat :=
  toNat_payload (by decide) cv

theorem payload_locoInfoReq (a : LocoAddr) : (Notification.locoInfoReq a).payload.toNat = a.toNat :=
  toNat_payload (by decide) a

theorem payload_locoFuncReq (a : LocoAddr) : (Notification.locoFuncReq a).payload.toNat = a.toNat :=
  toNat_payload (by decide) a

/-! ### The two bytes of a locomotive address (30_encoding.md R110) -/

theorem locoLow_toNat (a : LocoAddr) : (locoLow a).toNat = a.toNat % 256 := by
  simp [locoLow]

/-- Adding 0xC0 to the six high bits carries nothing, since they stand below it. -/
theorem locoHigh_toNat (a : LocoAddr) :
    (locoHigh a).toNat = a.toNat / 256 + (if 100 ≤ a.toNat then 0xC0 else 0) := by
  have hhigh : (a.extractLsb' 8 6).toNat = a.toNat / 256 := by
    have := a.isLt
    rw [BitVec.extractLsb'_toNat, Nat.shiftRight_eq_div_pow, Nat.mod_eq_of_lt]
    omega
  rw [← hhigh, locoHigh]
  generalize a.extractLsb' 8 6 = high
  split <;> revert high <;> decide

/-! ### The statement -/

/-- Settles O4: the fixed frames and codes by evaluation, the addresses and payloads by their fields' values. -/
theorem builtFramesHaveTheirBytes : Obligations.BuiltFramesHaveTheirBytes := by
  refine ⟨?frames, by decide, by decide, fun s hrole => ?hostMaster, fun s hrole => if_neg hrole,
    fun a => ⟨locoLow_toNat a, locoHigh_toNat a, locoOf_addressBytes a⟩, by decide,
    fun k a spd => ⟨payload_drive k a spd, kind_drive k a spd⟩,
    fun a f5 f4 g fb => ⟨payload_funcG1 a f5, payload_funcG2 a f4, payload_funcG3 a f4, payload_funcGen a g fb⟩,
    fun x y t p q => ⟨payload_turnoutInfo x p, payload_turnoutCmd t p q, payload_feedback x y, payload_cvRead x,
      payload_cvWrite x y⟩,
    fun a cv v pos p => ⟨payload_pomByte a cv v, payload_pomBit a cv pos p, payload_locoInfoReq a,
      payload_locoFuncReq a⟩,
    by decide, by decide, by decide⟩
  case frames =>
    rintro t rfl
    and_intros <;> decide
  case hostMaster =>
    calc s.hostCb = mkCb .msg 0 := if_pos hrole
      _ = 0xC0 := by decide

end Sys2Proof.Machine
end

section
/-! PROOFS. The Wire Codec's pure functions: call bytes and their parity, the exclusive-or of bytes, checksum, verify
(40_wire_codec.md R141 to R146). -/

namespace Sys2Proof.Machine

/-! ### Call bytes and their parity (40_wire_codec.md R143, R145) -/

/-- The parity bit counts one more 1 bit than the others. -/
theorem popcount_parityBit (raw : Byte) : popcount (raw &&& 0xBF ||| 0x40) = popcount (raw &&& 0xBF) + 1 := by
  revert raw
  decide

theorem callByteParity_even (raw : Byte) : popcount (callByteParity raw) % 2 = 0 := by
  simp only [callByteParity]
  split
  · rw [popcount_parityBit]
    omega
  · omega

/-- Bit 6 alone is written. -/
theorem callByteParity_keeps (raw : Byte) : callByteParity raw &&& 0xBF = raw &&& 0xBF := by
  have hclear : (raw &&& 0xBF ||| 0x40) &&& 0xBF = raw &&& 0xBF := by
    rw [BitVec.and_or_distrib_right, BitVec.and_assoc]
    simp
  simp only [callByteParity]
  split
  · exact hclear
  · rw [BitVec.and_assoc, BitVec.and_self]

/-- Bit 6 of the argument is not looked at. -/
theorem callByteParity_congr {raw raw' : Byte} (h : raw &&& 0xBF = raw' &&& 0xBF) :
    callByteParity raw = callByteParity raw' := by
  simp only [callByteParity, h]

theorem callByteParity_idem (raw : Byte) : callByteParity (callByteParity raw) = callByteParity raw :=
  callByteParity_congr (callByteParity_keeps raw)

/-- The class is read from bits 7 and 5. -/
theorem cbClass_iff (cb : Byte) :
    (cbClass cb = .poll ↔ cb.getLsbD 7 = false ∧ cb.getLsbD 5 = false) ∧
    (cbClass cb = .ackreq ↔ cb.getLsbD 7 = false ∧ cb.getLsbD 5 = true) ∧
    (cbClass cb = .msg ↔ cb.getLsbD 7 = true ∧ cb.getLsbD 5 = false) ∧
    (cbClass cb = .reserved ↔ cb.getLsbD 7 = true ∧ cb.getLsbD 5 = true) := by
  unfold cbClass
  cases cb.getLsbD 7 <;> cases cb.getLsbD 5 <;> decide

theorem cbOk_iff (cb : Byte) : cbOk cb = true ↔ popcount cb % 2 = 0 := beq_iff_eq

/-- Settles O6: the constructor's fields read back, and the parity bit makes the count even. -/
theorem callByteConstructor : Obligations.CallByteConstructor := by
  refine ⟨fun cls a => ⟨Laws.cbOk_mkCb cls a, cbClass_mkCb cls a, cbAddr_mkCb cls a⟩, fun cb => ?_, by decide, by decide,
    by decide, by decide,
    fun raw s => ⟨rfl, callByteParity_keeps raw, callByteParity_even raw, callByteParity_idem raw⟩,
    by decide, by decide, by decide⟩
  obtain ⟨hpoll, hackreq, hmsg, hreserved⟩ := cbClass_iff cb
  exact ⟨hpoll, hackreq, hmsg, hreserved, rfl, cbOk_iff cb⟩

/-! ### The exclusive-or of a byte sequence (40_wire_codec.md R141) -/

theorem zeroByte_xor (b : Byte) : 0 ^^^ b = b := BitVec.zero_xor

@[simp] theorem xorBytes_nil : xorBytes [] = 0 := rfl

theorem xorBytes_singleton (b : Byte) : xorBytes [b] = b := zeroByte_xor b

@[simp] theorem xorBytes_cons (b : Byte) (s : List Byte) : xorBytes (b :: s) = b ^^^ xorBytes s := by
  rw [← List.singleton_append, Laws.xorBytes_append, xorBytes_singleton]

theorem xorBytes_perm {s t : List Byte} (h : s.Perm t) : xorBytes s = xorBytes t := by
  induction h with
  | nil => rfl
  | cons b _ ih => rw [xorBytes_cons, xorBytes_cons, ih]
  | swap a b s =>
    simp only [xorBytes_cons]
    ac_rfl
  | trans _ _ ih ih' => exact ih.trans ih'

/-- Flipping the bits of the masks changes the exclusive-or by that of the masks. -/
theorem xorBytes_zipWith {s masks : List Byte} (h : masks.length = s.length) :
    xorBytes (List.zipWith (· ^^^ ·) s masks) = xorBytes s ^^^ xorBytes masks := by
  induction s generalizing masks with
  | nil => simp [List.eq_nil_of_length_eq_zero h]
  | cons b s ih =>
    cases masks with
    | nil => cases h
    | cons m masks =>
      simp only [List.zipWith_cons_cons, xorBytes_cons, ih (Nat.succ.inj h)]
      ac_rfl

/-- Flipping the bits of one mask in one byte changes the exclusive-or by that mask, whichever byte it is. -/
theorem xorBytes_modify {s : List Byte} {i : Nat} (hi : i < s.length) (mask : Byte) :
    xorBytes (s.modify i (· ^^^ mask)) = xorBytes s ^^^ mask := by
  induction s generalizing i with
  | nil => cases hi
  | cons b s ih =>
    cases i with
    | zero =>
      simp only [List.modify_zero_cons, xorBytes_cons]
      ac_rfl
    | succ i => rw [List.modify_succ_cons, xorBytes_cons, ih (Nat.lt_of_succ_lt_succ hi), xorBytes_cons, BitVec.xor_assoc]

/-! ### Verify and encode (40_wire_codec.md R142, R144) -/

theorem verify_cons (cb : Byte) (f : List Byte) : verify (cb :: f) = true ↔ xorBytes f = 0 := by
  simp [verify]

theorem verify_encodeFrame (cb h : Byte) (d : List Byte) : verify (cb :: encodeFrame h d) = true :=
  Laws.verify_messageOf cb h d

@[simp] theorem xorBytes_encodeFrame (h : Byte) (d : List Byte) : xorBytes (encodeFrame h d) = 0 :=
  (verify_cons 0 _).1 (verify_encodeFrame 0 h d)

/-- A Message verifies exactly when its last byte is the checksum of the bytes between it and the call byte. -/
theorem verify_lastByte (cb h x : Byte) (d : List Byte) :
    verify (cb :: h :: d ++ [x]) = decide (x = computeChecksum h d) := by
  rw [Bool.eq_iff_iff, List.cons_append, verify_cons, Laws.xorBytes_append, xorBytes_singleton, decide_eq_true_iff]
  exact BitVec.xor_eq_zero_iff.trans eq_comm

theorem singleBit_ne_zero {k : Nat} (hk : k < 8) : BitVec.twoPow 8 k ≠ 0 := by
  intro h
  have hbit := congrArg (BitVec.getLsbD · k) h
  simp [hk] at hbit

/-- Settles O5: encoded frames have exclusive-or 0, and flipped bits change it by the exclusive-or of their masks. -/
theorem codecLaws : Obligations.CodecLaws := by
  refine ⟨verify_encodeFrame, fun cb h d masks hlen => ?masks, fun cb h d i k hi hk => ?single,
    fun cb h d i j k hi hj _ => ?twice, fun cb cb' f => rfl, fun a => callByteParity_even _⟩
  case masks => rw [verify_cons, xorBytes_zipWith hlen, xorBytes_encodeFrame, zeroByte_xor]
  case single =>
    rw [← Bool.not_eq_true, verify_cons, xorBytes_modify hi, xorBytes_encodeFrame, zeroByte_xor]
    exact singleBit_ne_zero hk
  case twice =>
    have hj' : j < ((encodeFrame h d).modify i (· ^^^ BitVec.twoPow 8 k)).length := by rwa [List.length_modify]
    rw [verify_cons, xorBytes_modify hj', xorBytes_modify hi, xorBytes_encodeFrame, zeroByte_xor, BitVec.xor_self]
    rfl

/-- Settles O7: the checksum is the exclusive-or of its bytes, so their order does not matter. -/
theorem checksumVerifyEncode : Obligations.ChecksumVerifyEncode := by
  refine ⟨fun h d s => rfl, xorBytes_singleton, fun h b d => ?snoc, fun h h' d d' hperm => xorBytes_perm hperm, by decide,
    fun cb h x d s => ?verify, fun h d s => rfl⟩
  case snoc =>
    calc computeChecksum h (d ++ [b]) = xorBytes (h :: d) ^^^ xorBytes [b] := Laws.xorBytes_append (h :: d) [b]
      _ = computeChecksum h d ^^^ b := by rw [xorBytes_singleton, computeChecksum]
  case verify =>
    rw [← verify_lastByte cb]
    rfl

end Sys2Proof.Machine
end

section
/-! PROOFS. Assembling a Message in a ring: what the bytes appended and the commit do to the ring's contents
(41_ring_buffers.md R160 to R162, 20_memory.md R85). -/

namespace Sys2Proof.Machine

/-! ### The slot of the write index (10_state.md R36, R47; 20_memory.md R71) -/

/-- The write index is the read index advanced by the number of unread Messages, so it names that slot. -/
theorem idx_mod_eq_advance {cap a b : Nat} (ha : a < 2 * cap) (hb : b < 2 * cap) :
    b % cap = (a + idxDist cap a b) % cap := by
  rw [idxDist_eq ha hb]
  split
  · rw [Nat.add_sub_cancel' ‹_›]
  · rw [show a + (b + 2 * cap - a) = b + cap * 2 by omega, Nat.add_mul_mod_self_left]

/-- With room, the slot being written is none of the unread ones. -/
theorem unread_slot_ne {cap a b k : Nat} (ha : a < 2 * cap) (hb : b < 2 * cap) (hk : k < idxDist cap a b)
    (hroom : idxDist cap a b < cap) : (a + k) % cap ≠ b % cap := by
  rw [idx_mod_eq_advance ha hb]
  intro h
  have hmod : k % cap = idxDist cap a b % cap := Nat.ModEq.add_left_cancel' a h
  rw [Nat.mod_eq_of_lt (hk.trans hroom), Nat.mod_eq_of_lt hroom] at hmod
  omega

/-- A ring with room has fewer than `cap` unread Messages, whatever the copies lag. -/
theorem Ring.count_lt {cap : Nat} {r : Ring} (h : r.indexOk cap) (hroom : idxDist cap r.rdSeen r.wr < cap) :
    r.count cap < cap := by
  obtain ⟨-, -, hseen, -⟩ := h
  unfold Ring.count
  omega

/-- A producer that does not see the ring full has room. -/
theorem Ring.room_of_not_full {cap : Nat} {r : Ring} (h : r.indexOk cap) (hf : r.isFull cap = false) :
    idxDist cap r.rdSeen r.wr < cap := by
  obtain ⟨-, -, -, hle⟩ := h
  have hne : idxDist cap r.rdSeen r.wr ≠ cap := by simpa [Ring.isFull] using hf
  omega

/-- A store to the slot of the write index leaves the unread slots alone. -/
theorem Ring.slotAt_unread {cap k : Nat} {r r' : Ring} {f : MsgSlot → MsgSlot} (hi : r.indexOk cap)
    (hroom : r.count cap < cap) (hm : r'.mem = r.mem.modify (r.wr % cap) f) (hk : k < r.count cap) :
    r'.slotAt cap (r.rd + k) = r.slotAt cap (r.rd + k) := by
  obtain ⟨⟨hwr, hrd, -⟩, -⟩ := hi
  exact Ring.slotAt_modify_ne hm (unread_slot_ne hrd hwr hk hroom)

theorem Ring.wrSlot_lt {cap : Nat} {r : Ring} (hc : 1 ≤ cap) (h : r.shapeOk cap) : r.wr % cap < r.mem.length := by
  rw [h.1]
  exact Nat.mod_lt _ hc

/-- The slot of the write index has ten bytes. -/
theorem Ring.wrSlot_length {cap : Nat} {r : Ring} (hc : 1 ≤ cap) (h : r.shapeOk cap) :
    (r.slotAt cap r.wr).bytes.length = 10 := by
  have hlt := Ring.wrSlot_lt hc h
  obtain ⟨-, hslots⟩ := h
  have hget : r.slotAt cap r.wr = r.mem[r.wr % cap] := by simp [Ring.slotAt, List.getD_eq_getElem?_getD, hlt]
  rw [hget]
  exact (hslots _ (List.getElem_mem hlt)).1

/-! ### A Message being assembled (10_state.md R37, 20_memory.md R85) -/

/-- `r'` is `r` with the cursor open and the bytes `m` of a Message appended: only the slot of the write index is stored
to, and no Message is gained or lost. -/
structure Ring.Assembles (cap lag : Nat) (r : Ring) (m : List Byte) (r' : Ring) : Prop where
  ok : r'.Ok cap lag
  isOpen : r'.curOpen = true
  pos : r'.curPos = m.length
  bytes : r'.inProgress cap = m
  contents : r'.contents cap = r.contents cap
  store : ∀ i, i ≠ r.wr % cap → r'.mem[i]? = r.mem[i]?
  frame : { r' with mem := r.mem, curOpen := r.curOpen, curPos := r.curPos } = r

/-- What assembling does not write is as before. -/
theorem Ring.Assembles.same {α : Type} {cap lag : Nat} {r r' : Ring} {m : List Byte} (h : r.Assembles cap lag m r')
    (f : Ring → α) : f { r' with mem := r.mem, curOpen := r.curOpen, curPos := r.curPos } = f r :=
  congrArg f h.frame

/-- `beginWrite` begins an empty one (41_ring_buffers.md R160). -/
theorem Ring.Assembles.opened {cap lag : Nat} {r : Ring} (h : r.Ok cap lag) (hf : r.isFull cap = false) :
    r.Assembles cap lag [] { r with curOpen := true, curPos := 0 } where
  ok := by
    obtain ⟨hshape, hindex, -, hcopies⟩ := h
    exact ⟨hshape, hindex, ⟨Nat.zero_le _, nofun, fun _ => Ring.room_of_not_full hindex hf⟩, hcopies⟩
  isOpen := rfl
  pos := rfl
  bytes := List.take_zero
  contents := rfl
  store _ _ := rfl
  frame := rfl

/-- A ring with its cursor open has one in progress. -/
theorem Ring.Assembles.inProgress {cap lag : Nat} {r : Ring} (hc : 1 ≤ cap) (h : r.Ok cap lag)
    (ho : r.curOpen = true) : r.Assembles cap lag (r.inProgress cap) r where
  ok := h
  isOpen := ho
  pos := by
    obtain ⟨hshape, -, ⟨hpos, -⟩, -⟩ := h
    rw [Ring.inProgress, List.length_take, Ring.wrSlot_length hc hshape, Nat.min_eq_left hpos]
  bytes := rfl
  contents := rfl
  store _ _ := rfl
  frame := rfl

/-- Storing a byte at the cursor extends the bytes in front of it. -/
theorem take_set_succ {l : List Byte} {n : Nat} (h : n < l.length) (b : Byte) :
    (l.set n b).take (n + 1) = l.take n ++ [b] := by
  rw [List.take_add_one, List.take_set_of_le (Nat.le_refl n), List.getElem?_set_self h, Option.toList_some]

/-- `appendByte` with the cursor open and room (41_ring_buffers.md R161). -/
theorem Ring.Assembles.appendByte {cap lag : Nat} {r r' : Ring} {m : List Byte} (h : r.Assembles cap lag m r')
    (hm : m.length < 10) (b : Byte) : r.Assembles cap lag (m ++ [b]) (r'.appendByte cap b) := by
  have hwr : r'.wr = r.wr := h.same Ring.wr
  obtain ⟨hok, hopen, hpos, hbytes, hcontents, hstore, hframe⟩ := h
  obtain ⟨hshape, hindex, ⟨hpos10, hclosed, hroom⟩, hcopies⟩ := hok
  have hc : 1 ≤ cap := Nat.zero_lt_of_lt (hroom hopen)
  have hshape' := Ring.appendByte_keeps_shape hshape b
  rw [Ring.appendByte_open hopen (hpos ▸ hm)] at hshape' ⊢
  refine ⟨⟨hshape', hindex, ⟨?pos10, fun hcl => ?closed, hroom⟩, hcopies⟩, hopen, ?pos, ?bytes, ?contents, ?store, hframe⟩
  case pos10 => exact Nat.succ_le_of_lt (hpos ▸ hm)
  case closed => exact absurd (hopen.symm.trans hcl) (by decide)
  case pos => simp [hpos]
  case bytes =>
    rw [← hbytes, Ring.inProgress, Ring.slotAt_modify (q := r'.wr) rfl rfl (Ring.wrSlot_lt hc hshape), Ring.inProgress]
    exact take_set_succ (by rw [Ring.wrSlot_length hc hshape, hpos]; exact hm) b
  case contents =>
    rw [← hcontents]
    refine List.map_congr_left fun k hk => ?_
    exact congrArg _ (Ring.slotAt_unread hindex (Ring.count_lt hindex (hroom hopen)) rfl (List.mem_range.1 hk))
  case store =>
    intro i hi
    rw [← hstore i hi]
    exact List.getElem?_modify_ne _ _ (hwr ▸ Ne.symm hi)

/-- A byte appended to the Message in progress, whose earlier bytes may be any. -/
theorem Ring.Assembles.nextByte {cap lag : Nat} {r : Ring} (hc : 1 ≤ cap) (h : r.Ok cap lag) (ho : r.curOpen = true)
    (hp : r.curPos < 10) (b : Byte) : r.Assembles cap lag (r.inProgress cap ++ [b]) (r.appendByte cap b) :=
  have hprog := Ring.Assembles.inProgress hc h ho
  hprog.appendByte (hprog.pos ▸ hp) b

theorem Ring.Assembles.appendAll {cap lag : Nat} {r r' : Ring} {m : List Byte} (h : r.Assembles cap lag m r')
    (bs : List Byte) (hm : m.length + bs.length ≤ 10) : r.Assembles cap lag (m ++ bs) (r'.appendAll cap bs) := by
  induction bs generalizing m r' with
  | nil => simpa using h
  | cons b bs ih =>
    rw [List.length_cons] at hm
    have hnext := ih (h.appendByte (by omega) b) (by rw [List.length_append, List.length_singleton]; omega)
    rwa [List.append_assoc, List.singleton_append] at hnext

/-- `commit` makes the Message in progress the newest unread one (41_ring_buffers.md R162). -/
theorem Ring.contents_commit {cap lag : Nat} {r : Ring} (h : r.Ok cap lag) (ho : r.curOpen = true) :
    (r.commit cap lag).contents cap = r.contents cap ++ [r.inProgress cap] := by
  obtain ⟨hshape, hindex, ⟨-, -, hroom⟩, -⟩ := h
  have hcount := Ring.count_lt hindex (hroom ho)
  obtain ⟨hwr, hrd, -⟩ := hindex.1
  have hslot := Ring.wrSlot_lt (Nat.zero_lt_of_lt hcount) hshape
  have hlast : (r.rd + r.count cap) % cap = r.wr % cap := (idx_mod_eq_advance hrd hwr).symm
  have hnext : (r.commit cap lag).count cap = r.count cap + 1 := by
    rw [Ring.commit_open ho]
    exact idxDist_next_right hrd hwr (show r.count cap + 1 < 2 * cap by omega)
  have hmem : (r.commit cap lag).mem = r.mem.modify (r.wr % cap) fun m => { m with len := r.curPos } := by
    rw [Ring.commit_open ho]
  rw [Ring.contents, hnext, List.range_succ, List.map_append, List.map_singleton, Ring.commit_rd]
  congr 1
  · refine List.map_congr_left fun k hk => ?_
    rw [Ring.slotAt_unread hindex hcount hmem (List.mem_range.1 hk)]
  · rw [Ring.slotAt_modify hmem hlast hslot]
    rfl

/-- Committing an assembled Message gains it and closes the cursor. -/
theorem Ring.Assembles.commit {cap lag : Nat} {r r' : Ring} {m : List Byte} (h : r.Assembles cap lag m r') :
    r.Gains cap lag (r'.commit cap lag) m ∧ (r'.commit cap lag).curOpen = false ∧
      (r'.commit cap lag).curPos = 0 := by
  have hcontents := Ring.contents_commit h.ok h.isOpen
  have hwr : r'.wr = r.wr := h.same Ring.wr
  have hseen : r'.wrSeen = r.wrSeen := h.same Ring.wrSeen
  rw [h.bytes, h.contents] at hcontents
  rw [Ring.commit_open h.isOpen] at hcontents ⊢
  rw [Ring.Gains, ← hwr, ← hseen]
  refine ⟨⟨hcontents, rfl, rfl, fun i hi => ?store, h.frame⟩, rfl, rfl⟩
  case store =>
    rw [← h.store i (hwr ▸ hi)]
    exact List.getElem?_modify_ne _ _ (Ne.symm hi)

end Sys2Proof.Machine
end

section
/-! PROOFS. Data bytes at the frame parser: the header, the body, a frame received whole (40_wire_codec.md R147 to R154,
42_arbitrator.md R185). -/

namespace Sys2Proof.Machine

/-! ### One data byte (42_arbitrator.md R185 line 4) -/

/-- A data byte restarts an open window's timer and goes to the parser. -/
theorem exec_rxi_data {s : State} (hset : s.setupDone = true) (hact : s.txActive = false) (b : Byte) :
    exec (.rxi false b) s = .next (s.heardByte.parse b) := by
  have hdata : s.onDataByte b = s.heardByte.parse b := by
    unfold State.onDataByte State.heardByte
    rw [if_neg (by simp [hset, hact])]
    split <;> rfl
  exact congrArg Host.Outcome.next hdata

/-- Settles O20: the three cases of the parser's HEADER state; in the last the Message begins with two bytes. -/
theorem headerByte : Obligations.HeaderByte := by
  intro b s hset hact hst hok
  obtain ⟨-, hring⟩ := hok
  rw [exec_rxi_data hset hact]
  rcases State.parse_header (s := s.heardByte) b hst with ⟨hlong, heq⟩ | ⟨hshort, hfull, heq⟩ | ⟨hshort, hroom, heq⟩
  · exact ⟨fun _ => congrArg _ heq, fun h => by omega, fun h => by omega⟩
  · exact ⟨fun h => by omega, fun _ _ => congrArg _ heq, fun _ h => absurd (h.symm.trans hfull) (by decide)⟩
  · refine ⟨fun h => by omega, fun _ h => absurd (h.symm.trans hroom) (by decide), fun _ _ => ?_⟩
    have hbegun := (Ring.Assembles.opened hring hroom).appendAll [s.rxaCb, b] (Nat.le_of_ble_eq_true rfl)
    exact ⟨_, hbegun.bytes, hbegun.contents, hbegun.isOpen, hbegun.pos, hbegun.store, hbegun.frame, congrArg _ heq⟩

/-- Settles O21: a body byte extends the Message in progress, and the last one commits it. -/
theorem bodyByte : Obligations.BodyByte := by
  intro b s hset hact hok
  obtain ⟨hc, hring⟩ := hok
  rw [exec_rxi_data hset hact]
  refine ⟨fun hst => congrArg _ (State.parse_dropped b hst), fun hst hopen hpos hrem => ?more,
    fun hst hopen hpos hrem => ?last⟩
  case more =>
    have hnext := Ring.Assembles.nextByte hc hring hopen hpos b
    have hring' := Ring.appendByte_open (cap := s.params.cap) (b := b) hopen hpos
    rcases State.parse_body (s := s.heardByte) b hst with ⟨-, heq⟩ | ⟨hlast, -⟩
    · exact ⟨_, hnext.bytes, hnext.contents, by rw [hring'], hnext.store, by rw [hring'], congrArg _ heq⟩
    · exact absurd hlast hrem
  case last =>
    obtain ⟨hgain, hclosed, hpos0⟩ := (Ring.Assembles.nextByte hc hring hopen hpos b).commit
    rcases State.parse_body (s := s.heardByte) b hst with ⟨hmore, -⟩ | ⟨-, heq⟩
    · exact absurd hrem hmore
    · exact ⟨_, hgain, hclosed, hpos0, congrArg _ heq⟩

/-! ### A frame received whole (40_wire_codec.md R149 to R152) -/

theorem rxiRun_cons {s t : State} {b : Byte} (h : exec (.rxi false b) s = .next t) (bs : List Byte) :
    rxiRun (b :: bs) s = rxiRun bs t := by
  simp only [rxiRun, h]

/-- Once a byte is heard, the bytes after it in the same instant find the timer restarted already. -/
theorem State.heardByte_heardByte (s : State) : s.heardByte.heardByte = s.heardByte := by
  unfold State.heardByte
  split <;> rfl

/-- The parser and the RX ring have no part in the window's timer. -/
theorem State.heardByte_parser {s : State} (h : s.heardByte = s) (r : Ring) (rem : BitVec 4) (st : RxaState) :
    { s with rxRing := r, rxaRem := rem, rxaSt := st }.heardByte = { s with rxRing := r, rxaRem := rem, rxaSt := st } :=
  congrArg (fun u : State => { u with rxRing := r, rxaRem := rem, rxaSt := st }) h

/-- The body's bytes, as many as the parser expects: all are appended and the Message is committed. -/
theorem rxiRun_body {s : State} (bs : List Byte) (b : Byte) (hset : s.setupDone = true) (hact : s.txActive = false)
    (hheard : s.heardByte = s) (hst : s.rxaSt = .body) (hlen : bs.length < 15)
    (hrem : s.rxaRem = BitVec.ofNat 4 (bs.length + 1)) :
    rxiRun (bs ++ [b]) s =
      { s with
        rxRing := (s.rxRing.appendAll s.params.cap (bs ++ [b])).commit s.params.cap s.params.syncLag, rxaRem := 0,
        rxaSt := .idle, winOpen := if s.role = .master then false else s.winOpen } := by
  induction bs generalizing s with
  | nil =>
    rw [List.nil_append, rxiRun_cons (exec_rxi_data hset hact b), hheard]
    rcases State.parse_body b hst with ⟨hmore, -⟩ | ⟨-, heq⟩
    · exact absurd hrem hmore
    · exact heq
  | cons b' bs ih =>
    rw [List.length_cons] at hlen hrem
    have hmore : s.rxaRem ≠ 1 := by
      rw [hrem]
      bv_omega
    have hless : s.rxaRem - 1 = BitVec.ofNat 4 (bs.length + 1) := by
      rw [hrem]
      bv_omega
    rw [List.cons_append, rxiRun_cons (exec_rxi_data hset hact b'), hheard]
    rcases State.parse_body b' hst with ⟨-, heq⟩ | ⟨hlast, -⟩
    · rw [heq]
      exact ih hset hact (State.heardByte_parser hheard _ _ s.rxaSt) hst (by omega) hless
    · exact absurd hlast hmore

/-- Settles O22: the header opens the Message behind the call byte, and the body's bytes complete it. -/
theorem frameReceivedWhole : Obligations.FrameReceivedWhole := by
  intro h d s hset hact hst hok hroom hlen hcount
  obtain ⟨-, hring⟩ := hok
  have hfits : (s.rxaCb :: encodeFrame h d).length ≤ 10 := by
    simp only [encodeFrame, List.cons_append, List.length_cons, List.length_append, List.length_nil]
    omega
  have hall := (Ring.Assembles.opened hring hroom).appendAll (s.rxaCb :: encodeFrame h d)
    ((Nat.zero_add _).symm ▸ hfits)
  obtain ⟨hgain, hclosed, hpos0⟩ := hall.commit
  refine ⟨_, hgain, hclosed, hpos0, verify_encodeFrame .., ?_⟩
  rw [encodeFrame, List.cons_append, rxiRun_cons (exec_rxi_data hset hact h)]
  rcases State.parse_header (s := s.heardByte) h hst with ⟨hlong, -⟩ | ⟨-, hfull, -⟩ | ⟨-, -, heq⟩
  · omega
  · exact absurd (hroom.symm.trans hfull) (by decide)
  · rw [heq, hcount]
    exact rxiRun_body d _ hset hact (State.heardByte_parser s.heardByte_heardByte ..) rfl (by omega) rfl

end Sys2Proof.Machine
end

section
/-! PROOFS. What one operation does to a ring that a run has: the Messages in it, and that the ring stays one a run has
(41_ring_buffers.md R160 to R169, 10_state.md R36, R48, R52). -/

namespace Sys2Proof.Machine

/-! ### The number of unread Messages and the two tests (41_ring_buffers.md R165, R166, R169) -/

@[simp] theorem Ring.contents_length (cap : Nat) (r : Ring) : (r.contents cap).length = r.count cap := by
  rw [Ring.contents, List.length_map, List.length_range]

theorem Ring.contents_eq_nil_iff {cap : Nat} {r : Ring} : r.contents cap = [] ↔ r.count cap = 0 := by
  rw [← List.length_eq_zero_iff, Ring.contents_length]

theorem Ring.isEmpty_iff {r : Ring} : r.isEmpty = true ↔ r.wrSeen = r.rd := beq_iff_eq

theorem Ring.isFull_iff {cap : Nat} {r : Ring} : r.isFull cap = true ↔ idxDist cap r.rdSeen r.wr = cap := beq_iff_eq

theorem Ring.count_le {cap : Nat} {r : Ring} (h : r.indexOk cap) : r.count cap ≤ cap := by
  obtain ⟨-, -, hseen, hle⟩ := h
  unfold Ring.count
  omega

/-- The consumer sees an empty ring empty, whatever the copies lag: its copy is not past the write index. -/
theorem Ring.isEmpty_of_count {cap : Nat} {r : Ring} (h : r.indexOk cap) (h0 : r.count cap = 0) : r.isEmpty = true := by
  obtain ⟨⟨-, hrd, hseen, -⟩, hsum, -⟩ := h
  have hnear : idxDist cap r.rd r.wrSeen = 0 := by
    unfold Ring.count at h0
    omega
  exact Ring.isEmpty_iff.2 ((idxDist_eq_zero hrd hseen).1 hnear).symm

/-- The producer sees a full ring full, whatever the copies lag: its copy is not past the read index. -/
theorem Ring.isFull_of_count {cap : Nat} {r : Ring} (h : r.indexOk cap) (hc : r.count cap = cap) :
    r.isFull cap = true := by
  obtain ⟨-, -, hsum, hle⟩ := h
  unfold Ring.count at hc
  exact Ring.isFull_iff.2 (by omega)

/-- With an exact copy of the write index the consumer sees only an empty ring empty. -/
theorem Ring.isEmpty_iff_count {cap : Nat} {r : Ring} (h : r.indexOk cap) (hseen : r.wrSeen = r.wr) :
    r.isEmpty = true ↔ r.count cap = 0 := by
  obtain ⟨⟨hwr, hrd, -⟩, -⟩ := h
  rw [Ring.isEmpty_iff, hseen, Ring.count, idxDist_eq_zero hrd hwr, eq_comm]

/-- With an exact copy of the read index the producer sees only a full ring full. -/
theorem Ring.isFull_iff_count {cap : Nat} {r : Ring} (hseen : r.rdSeen = r.rd) :
    r.isFull cap = true ↔ r.count cap = cap := by
  rw [Ring.isFull_iff, hseen, Ring.count]

/-! ### `commit` and `enqueue` (41_ring_buffers.md R162, R168) -/

/-- The cursor is open on a free slot only, so the write index stays within the capacity. -/
theorem Ring.commit_keeps_ok {cap lag : Nat} {r : Ring} (h : r.Ok cap lag) (ho : r.curOpen = true) :
    (r.commit cap lag).Ok cap lag := by
  obtain ⟨hshape, ⟨⟨hwr, hrd, hwrSeen, hrdSeen⟩, hwrSum, hrdSum, -⟩, ⟨hpos, -, hopen⟩, hcopies⟩ := h
  have hroom := hopen ho
  have hc : 1 ≤ cap := Nat.zero_lt_of_lt hroom
  have hnext := idxNext_lt hc r.wr
  have hself : idxDist cap (idxNext cap r.wr) (idxNext cap r.wr) = 0 := idxDist_self hnext
  have hfromRd := idxDist_next_right hrd hwr (by omega)
  have hfromRdSeen := idxDist_next_right hrdSeen hwr (by omega)
  have hfromWrSeen := idxDist_next_right hwrSeen hwr (by omega)
  have hshape' := Ring.commit_keeps_shape (lag := lag) hshape hpos
  rw [Ring.commit_open ho] at hshape' ⊢
  refine ⟨hshape', ⟨⟨hnext, hrd, ?seenLt, hrdSeen⟩, ?seenBetween, ?rdBetween, ?within⟩,
    ⟨Nat.zero_le _, fun _ => rfl, nofun⟩, fun h0 => ⟨if_pos h0, (hcopies h0).2⟩⟩
  case seenLt => dsimp only; split <;> assumption
  case seenBetween => dsimp only; split <;> omega
  case rdBetween => dsimp only; omega
  case within => dsimp only; omega

/-- `enqueue` on a ring with room gains the Message and closes the cursor. -/
theorem Ring.enqueue_gains {cap lag : Nat} {r : Ring} {m : Message} (h : r.Ok cap lag) (hm : m.length ≤ 10)
    (hf : r.isFull cap = false) :
    ∃ r', r.enqueue cap lag m = some r' ∧ r.Gains cap lag r' m ∧ r'.curOpen = false ∧ r'.curPos = 0 ∧ r'.Ok cap lag := by
  have hall := (Ring.Assembles.opened h hf).appendAll m ((Nat.zero_add _).symm ▸ hm)
  obtain ⟨hgain, hclosed, hpos⟩ := hall.commit
  exact ⟨_, Ring.enqueue_some.2 ⟨hf, rfl⟩, hgain, hclosed, hpos, Ring.commit_keeps_ok hall.ok hall.isOpen⟩

/-! ### `tryRead` (41_ring_buffers.md R164) -/

/-- A consumer that sees the ring not empty has a Message to read. -/
theorem Ring.rd_ne_wr {cap : Nat} {r : Ring} (h : r.indexOk cap) (he : r.isEmpty = false) : r.rd ≠ r.wr := by
  intro heq
  obtain ⟨⟨hwr, hrd, -⟩, -⟩ := id h
  have hzero : r.count cap = 0 := (idxDist_eq_zero hrd hwr).2 heq
  exact absurd (he.symm.trans (Ring.isEmpty_of_count h hzero)) (by decide)

/-- The slot behind the read index's is the next one, the wrap of the index included. -/
theorem Ring.slotAt_idxNext {cap : Nat} (r : Ring) (p k : Nat) :
    r.slotAt cap (idxNext cap p + k) = r.slotAt cap (p + (k + 1)) := by
  have hmod : (idxNext cap p + k) % cap = (p + (k + 1)) % cap := by
    rw [idxNext, Nat.add_mod, Nat.mod_mul_left_mod, ← Nat.add_mod, Nat.add_assoc, Nat.add_comm 1 k]
  rw [Ring.slotAt, hmod, Ring.slotAt]

/-- The oldest unread Message is the one at the read index. -/
theorem Ring.contents_cons {cap : Nat} {r r' : Ring} (h : r.indexOk cap) (he : r.isEmpty = false)
    (hmem : r'.mem = r.mem) (hwr : r'.wr = r.wr) (hrd : r'.rd = idxNext cap r.rd) :
    r.contents cap = (r.slotAt cap r.rd).message :: r'.contents cap := by
  have hne := Ring.rd_ne_wr h he
  obtain ⟨⟨hwrLt, hrdLt, -⟩, -⟩ := h
  have hcount : r.count cap = r'.count cap + 1 := by
    rw [Ring.count, Ring.count, hwr, hrd, idxDist_next_left hrdLt hwrLt hne]
  rw [Ring.contents, hcount, List.range_succ_eq_map, List.map_cons, List.map_map, Nat.add_zero, Ring.contents]
  congr 1
  refine List.map_congr_left fun k _ => ?_
  rw [Function.comp_apply, hrd, Ring.slotAt_congr hmem, Ring.slotAt_idxNext]

/-- `tryRead` on a ring that the consumer sees not empty loses the oldest Message, and the read index does not pass the
consumer's copy of the write index. -/
theorem Ring.tryRead_loses {cap lag : Nat} {r : Ring} (h : r.Ok cap lag) (he : r.isEmpty = false) :
    ∃ m r', r.tryRead cap lag = some (m, r') ∧ r.Loses cap lag r' m ∧ r'.Ok cap lag := by
  obtain ⟨hshape, hindex, ⟨hpos, hclosed, hopen⟩, hcopies⟩ := h
  refine ⟨_, _, Ring.tryRead_some.2 ⟨he, rfl, rfl⟩, ⟨Ring.contents_cons hindex he rfl rfl rfl, rfl, rfl, rfl⟩, ?_⟩
  have hne := Ring.rd_ne_wr hindex he
  have hneSeen : r.rd ≠ r.wrSeen := fun heq => absurd (he.symm.trans (Ring.isEmpty_iff.2 heq.symm)) (by decide)
  obtain ⟨⟨hwr, hrd, hwrSeen, hrdSeen⟩, hwrSum, hrdSum, hle⟩ := hindex
  have hnext := idxNext_lt (show 1 ≤ cap by omega) r.rd
  have hself : idxDist cap (idxNext cap r.rd) (idxNext cap r.rd) = 0 := idxDist_self hnext
  have htoWr := idxDist_next_left hrd hwr hne
  have htoWrSeen := idxDist_next_left hrd hwrSeen hneSeen
  have hfromSeen := idxDist_next_right hrdSeen hrd (by omega)
  refine ⟨hshape, ⟨⟨hwr, hnext, hwrSeen, ?seenLt⟩, ?wrBetween, ?seenBetween, ?within⟩, ⟨hpos, hclosed, fun ho => ?room⟩,
    fun h0 => ⟨(hcopies h0).1, if_pos h0⟩⟩
  case seenLt => dsimp only; split <;> assumption
  case wrBetween => dsimp only; omega
  case seenBetween => dsimp only; split <;> omega
  case within => dsimp only; split <;> omega
  case room =>
    have hroom := hopen ho
    dsimp only
    split <;> omega

end Sys2Proof.Machine
end

section
/-! PROOFS. The ring buffers: each operation, and a ring without lag as a bounded queue (41_ring_buffers.md R160 to
R171). -/

namespace Sys2Proof.Machine

/-! ### A ring as a queue (41_ring_buffers.md R169 to R171) -/

/-- Without lag the producer sees the ring full only when the queue is. -/
theorem Ring.not_length_lt_of_full {cap : Nat} {r : Ring} (h : r.Ok cap 0) (hf : r.isFull cap = true) :
    ¬ (r.contents cap).length < cap := by
  obtain ⟨-, -, -, hcopies⟩ := h
  rw [Ring.contents_length, (Ring.isFull_iff_count (hcopies rfl).2).1 hf]
  exact Nat.lt_irrefl cap

theorem Ring.length_lt_of_not_full {cap lag : Nat} {r : Ring} (h : r.Ok cap lag) (hf : r.isFull cap = false) :
    (r.contents cap).length < cap := by
  obtain ⟨-, hindex, -⟩ := h
  rw [Ring.contents_length]
  exact Ring.count_lt hindex (Ring.room_of_not_full hindex hf)

/-- Without lag the consumer sees the ring empty only when the queue is. -/
theorem Ring.contents_eq_nil_of_isEmpty {cap : Nat} {r : Ring} (h : r.Ok cap 0) (he : r.isEmpty = true) :
    r.contents cap = [] := by
  obtain ⟨-, hindex, -, hcopies⟩ := h
  exact Ring.contents_eq_nil_iff.2 ((Ring.isEmpty_iff_count hindex (hcopies rfl).1).1 he)

/-- Without lag a ring and the queue of its unread Messages accept the same Messages and are read alike, and what is
left of the ring holds what is left of the queue. -/
theorem Ring.run_eq_queueRun {cap : Nat} {r : Ring} {ops : List RingOp} (h : r.Ok cap 0)
    (hops : ∀ m, RingOp.put m ∈ ops → m.length ≤ 10) : r.run cap 0 ops = queueRun cap (r.contents cap) ops := by
  induction ops generalizing r with
  | nil => cases r.contents cap <;> rfl
  | cons op ops ih =>
    have hrest : ∀ m, RingOp.put m ∈ ops → m.length ≤ 10 := fun m hm => hops m (List.mem_cons_of_mem _ hm)
    have hsame := ih h hrest
    cases op with
    | put m =>
      cases hf : r.isFull cap with
      | true =>
        have hfull := Ring.not_length_lt_of_full h hf
        simp only [Ring.run, queueRun, Ring.enqueue_none.2 hf, if_neg hfull, hsame]
      | false =>
        have hroom := Ring.length_lt_of_not_full h hf
        obtain ⟨r', henq, ⟨hcontents, -⟩, -, -, hok⟩ := Ring.enqueue_gains h (hops m List.mem_cons_self) hf
        simp only [Ring.run, queueRun, henq, if_pos hroom, ih hok hrest, hcontents]
    | get =>
      cases he : r.isEmpty with
      | true =>
        have hnil := Ring.contents_eq_nil_of_isEmpty h he
        rw [hnil] at hsame ⊢
        simp only [Ring.run, queueRun, Ring.tryRead_none.2 he, hsame]
      | false =>
        obtain ⟨m, r', hread, ⟨hcontents, -⟩, hok⟩ := Ring.tryRead_loses h he
        simp only [Ring.run, queueRun, hread, ih hok hrest, hcontents]

/-- Settles O11: the ring's contents are the queue at every operation. -/
theorem ringIsABoundedQueue : Obligations.RingIsABoundedQueue :=
  fun _ _ _ _ hok hops => Ring.run_eq_queueRun hok hops

/-! ### A ring of the state replaced, and an operation's answer (assumption 15) -/

@[simp] theorem State.setRing_ring (s : State) (q : RingId) : s.setRing q (s.ring q) = s := by
  cases q <;> rfl

/-- Replacing a ring leaves the ports alone. -/
theorem State.setRing_answer (s : State) (q : RingId) (r : Ring) (a : OpResult) :
    (s.setRing q r).answer a = { s.setRing q r with out := { s.out with op := a } } := by
  cases q <;> rfl

/-! ### `enqueue` and `tryRead` (41_ring_buffers.md R164, R168) -/

theorem exec_enqueue_full {s : State} {m : Message} (h : s.enqueueTx m = none) :
    exec (.enqueue m) s = .next (s.answer (.bool false)) := by
  change execEnqueue m s = _
  rw [execEnqueue, h]

theorem exec_enqueue_room {s t : State} {m : Message} (h : s.enqueueTx m = some t) :
    exec (.enqueue m) s = .next (t.answer (.bool true)) := by
  change execEnqueue m s = _
  rw [execEnqueue, h]

/-- Settles O9: with room the Message is assembled in the free slot and committed; with none the state is as before. -/
theorem enqueueAppends : Obligations.EnqueueAppends := by
  intro m s htx hlen
  obtain ⟨-, hok⟩ := htx
  obtain ⟨-, hlen⟩ := hlen
  rcases s.enqueueTx_cases m with ⟨hfull, hnone⟩ | ⟨hroom, r, henq, hsome⟩
  · exact ⟨fun h => absurd (h.symm.trans hfull) (by decide), fun _ => exec_enqueue_full hnone⟩
  · refine ⟨fun _ => ?_, fun h => absurd (h.symm.trans hroom) (by decide)⟩
    obtain ⟨r', henq', hgain, hclosed, hpos, -⟩ := Ring.enqueue_gains hok hlen hroom
    obtain rfl : r' = r := Option.some.inj (henq'.symm.trans henq)
    exact ⟨r', hgain, hclosed, hpos, exec_enqueue_room hsome⟩

theorem exec_tryRead_none {s : State} {q : RingId} (h : (s.ring q).isEmpty = true) :
    exec (.tryRead q) s = .next (s.answer (.message none)) := by
  change execTryRead q s = _
  rw [execTryRead, Ring.tryRead_none.2 h]

theorem exec_tryRead_some {s : State} {q : RingId} {m : Message} {r : Ring}
    (h : (s.ring q).tryRead s.params.cap s.params.syncLag = some (m, r)) :
    exec (.tryRead q) s = .next ((s.setRing q r).answer (.message (some m))) := by
  change execTryRead q s = _
  rw [execTryRead, h]

/-- Settles O10: the ring loses its oldest Message, or, seen empty, is as before. -/
theorem tryReadRemovesOldest : Obligations.TryReadRemovesOldest := by
  intro q s _ hok
  refine ⟨fun he => ?_, exec_tryRead_none⟩
  obtain ⟨m, r, hread, hloses, -⟩ := Ring.tryRead_loses hok he
  exact ⟨m, r, hloses, (exec_tryRead_some hread).trans (congrArg _ (s.setRing_answer ..))⟩

/-! ### The write cursor (41_ring_buffers.md R160 to R163) -/

theorem exec_appendByte (q : RingId) (b : Byte) (s : State) :
    exec (.appendByte q b) s = .next (s.setRing q ((s.ring q).appendByte s.params.cap b)) := rfl

theorem exec_commit (q : RingId) (s : State) :
    exec (.commit q) s = .next (s.setRing q ((s.ring q).commit s.params.cap s.params.syncLag)) := rfl

/-- Settles O13: the Message in progress grows by the byte, and is gained; an ignored operation puts back the ring as it
was. -/
theorem appendAndCommit : Obligations.AppendAndCommit := by
  intro q b s hc hok
  refine ⟨fun ho hp => ?grows, fun h => ?full, fun ho => ?gained, fun ho => ?closed⟩
  case grows =>
    have hnext := Ring.Assembles.nextByte hc hok ho hp b
    have hring := Ring.appendByte_open (cap := s.params.cap) (b := b) ho hp
    exact ⟨_, hnext.bytes, hnext.contents, hnext.store, by rw [hring], by rw [hring], exec_appendByte q b s⟩
  case full =>
    rw [exec_appendByte, Ring.appendByte_ignored (h.imp_right Eq.ge), State.setRing_ring]
  case gained =>
    obtain ⟨hgain, hclosed, hpos⟩ := (Ring.Assembles.inProgress hc hok ho).commit
    exact ⟨_, hgain, hclosed, hpos, exec_commit q s⟩
  case closed => rw [exec_commit, Ring.commit_ignored ho, State.setRing_ring]

theorem exec_beginWrite_none {s : State} {q : RingId} (h : (s.ring q).isFull s.params.cap = true) :
    exec (.beginWrite q) s = .next (s.answer (.bool false)) := by
  change execBeginWrite q s = _
  rw [execBeginWrite, Ring.beginWrite_none.2 h]

theorem exec_beginWrite_some {s : State} {q : RingId} (h : (s.ring q).isFull s.params.cap = false) :
    exec (.beginWrite q) s = .next ((s.setRing q { s.ring q with curOpen := true, curPos := 0 }).answer (.bool true)) := by
  change execBeginWrite q s = _
  rw [execBeginWrite, Ring.beginWrite_some.2 ⟨h, rfl⟩]

/-- Settles O12: the producer's test decides whether the cursor opens. -/
theorem cursorOpensAndAborts : Obligations.CursorOpensAndAborts := fun _ s =>
  ⟨exec_beginWrite_none, fun h => (exec_beginWrite_some h).trans (congrArg _ (s.setRing_answer ..)), rfl⟩

/-! ### The two tests (41_ring_buffers.md R165, R166) -/

/-- Settles O14: the copies are not past their originals, so each test errs one way only, and exact copies not at
all. -/
theorem ringTests : Obligations.RingTests := by
  intro q s _ hok
  obtain ⟨-, hindex, -, hcopies⟩ := hok
  rw [Ring.contents_length, Ring.contents_eq_nil_iff]
  refine ⟨rfl, rfl, Ring.count_le hindex, Ring.isEmpty_of_count hindex, Ring.isFull_of_count hindex, fun h0 => ?_⟩
  obtain ⟨hwrSeen, hrdSeen⟩ := hcopies h0
  exact ⟨(Ring.isEmpty_iff_count hindex hwrSeen).1, (Ring.isFull_iff_count hrdSeen).1⟩

end Sys2Proof.Machine
end

section
/-! PROOFS. A received call byte: void, refused for its parity, without an action for this device, or answered
(42_arbitrator.md R185 to R189). -/

namespace Sys2Proof.Machine

/-! ### A Message read from the TX ring, loaded for transmission (41_ring_buffers.md R164, 42_arbitrator.md R190) -/

/-- A slot of a well-shaped ring holds a Message of at most ten bytes. -/
theorem Ring.slotAt_message_le {cap : Nat} {r : Ring} (hc : 1 ≤ cap) (h : r.shapeOk cap) (p : Nat) :
    (r.slotAt cap p).message.length ≤ 10 := by
  obtain ⟨hlen, hslots⟩ := h
  have hp : p % cap < r.mem.length := hlen.symm ▸ Nat.mod_lt _ hc
  have hmem : r.slotAt cap p ∈ r.mem := by
    rw [Ring.slotAt, List.getD_eq_getElem _ _ hp]
    exact List.getElem_mem hp
  exact (List.length_take_le _ _).trans (hslots _ hmem).2

/-- A transmitter that sees its TX ring not empty reads the oldest Message, of at most ten bytes. -/
theorem State.readTx_loses {s : State} (h : s.TxOk) (he : s.txEmpty = false) :
    ∃ m r, s.readTx = some (m, { s with txRing := r }) ∧ s.txRing.Loses s.params.cap s.params.syncLag r m ∧
      m.length ≤ 10 := by
  obtain ⟨hc, hok⟩ := h
  obtain ⟨m, r, hread, hloses, -⟩ := Ring.tryRead_loses hok he
  obtain ⟨-, hm, -⟩ := Ring.tryRead_some.1 hread
  refine ⟨m, r, by rw [State.readTx, hread]; rfl, hloses, ?_⟩
  rw [hm]
  exact Ring.slotAt_message_le hc hok.1 _

theorem State.readTx_empty {s : State} (he : s.txEmpty = true) : s.readTx = none := by
  rw [State.readTx, Ring.tryRead_none.2 he]
  rfl

/-! ### The row of a class (42_arbitrator.md R186 to R189) -/

/-- What a polled device does at a call byte of the class, for the address `a`. -/
def State.reaction (cls : CbClass) (p : Bool) (a : DevAddr) : State → State :=
  match cls with
  | .poll => State.reactPoll a
  | .ackreq => State.reactAckreq a
  | .msg => State.reactMsg (rawCallByte .msg p a) a
  | .reserved => id

theorem exec_callRow (cls : CbClass) (p : Bool) (a : DevAddr) (s : State) :
    exec (callRow cls p a) s = .next (s.onCallByte (rawCallByte cls p a) (State.reaction cls p a)) := by
  cases cls <;> rfl

/-- RXI at any byte is the row of a call byte, or a data byte. -/
theorem exec_rxi_call (b : Byte) (s : State) :
    exec (.rxi true b) s = exec (callRow (cbClass b) (cbParityBit b) (cbAddr b)) s := by
  rw [← decodeCallByte_eq]
  exact (exec_decodePort_rx true b s).symm

theorem State.polled.ne_idle {s : State} (h : s.polled) : s.role ≠ .idle := by
  rcases h with h | h <;> rw [h] <;> decide

theorem State.polled.ne_master {s : State} (h : s.polled) : s.role ≠ .master := by
  rcases h with h | h <;> rw [h] <;> decide

/-! ### Void, refused, heard (42_arbitrator.md R185 lines 1 to 3, R186) -/

theorem State.onCallByte_void {s : State} (h : s.setupDone = false ∨ s.txActive = true) (cb : Byte)
    (react : State → State) : s.onCallByte cb react = s := by
  rw [State.onCallByte, if_pos h]

theorem State.onDataByte_void {s : State} (h : s.setupDone = false ∨ s.txActive = true) (b : Byte) :
    s.onDataByte b = s := by
  rw [State.onDataByte, if_pos h]

/-- The state of a CORE that heard a good call byte, before it reacts (42_arbitrator.md R186). -/
abbrev State.heardCall (s : State) : State := { s with cbSeen := true }.cut

section
variable {s : State} (hset : s.setupDone = true) (hact : s.txActive = false)
include hset hact

theorem State.onCallByte_badParity {cb : Byte} (hp : cbOk cb = false) (react : State → State) :
    s.onCallByte cb react = s.blames [.cbParity] := by
  rw [State.onCallByte, if_neg (by simp [hset, hact]), if_pos hp, State.raise_eq]

/-- A call byte heard in the roles no master polls resets the parser and does nothing else. -/
theorem State.onCallByte_unpolled {cb : Byte} (hp : cbOk cb = true) (hr : ¬ s.polled) (react : State → State) :
    s.onCallByte cb react = s.heardCall := by
  rw [State.onCallByte, if_neg (by simp [hset, hact]), if_neg (by simp [hp]), State.parserReset_eq]
  exact if_neg hr

/-- A polled device that hears a call byte resets the parser, then reacts. -/
theorem State.onCallByte_polled {cb : Byte} (hp : cbOk cb = true) (hr : s.polled) (react : State → State) :
    s.onCallByte cb react = react s.heardCall := by
  rw [State.onCallByte, if_neg (by simp [hset, hact]), if_neg (by simp [hp]), State.parserReset_eq]
  exact if_pos hr

/-- What a polled device answers to a good call byte is its class's reaction. -/
theorem exec_callRow_polled {cls : CbClass} {p : Bool} {a : DevAddr} (hp : cbOk (rawCallByte cls p a) = true)
    (hr : s.polled) :
    exec (callRow cls p a) s = .next (State.reaction cls p a s.heardCall) := by
  rw [exec_callRow, State.onCallByte_polled hset hact hp hr]

end

/-! ### The reactions (42_arbitrator.md R187 to R189) -/

/-- The reserved class has no reaction, nor has a call byte for another device; address 0 names all devices in class MSG
and none in the others. -/
theorem State.reaction_none {cls : CbClass} {a : DevAddr} {s : State}
    (h : cls = .reserved ∨ (a ≠ s.myAddr ∧ (cls = .msg → a ≠ 0)) ∨ (a = 0 ∧ cls ≠ .msg)) (p : Bool) :
    State.reaction cls p a s = s := by
  cases cls with
  | reserved => rfl
  | poll | ackreq =>
    refine if_neg fun ⟨hzero, hmine⟩ => ?_
    rcases h with h | ⟨hother, -⟩ | ⟨hz, -⟩
    · cases h
    · exact hother hmine
    · exact hzero hz
  | msg =>
    refine if_neg fun hmine => ?_
    rcases h with h | ⟨hother, hall⟩ | ⟨-, hcls⟩
    · cases h
    · exact hmine.elim (hall rfl) hother
    · exact hcls rfl

/-- Settles O17: the byte's checks in the order of R185, and no class reacts outside its address and role. -/
theorem callByteIgnored : Obligations.CallByteIgnored := by
  refine ⟨fun b s => (exec_decodePort_rx true b s).symm, fun mark b s hvoid => ?void,
    fun cls p a s hset hact => ⟨fun hp => ?parity, fun hp hnone => ?heard⟩⟩
  case void =>
    cases mark with
    | true => rw [exec_rxi_call, exec_callRow, State.onCallByte_void hvoid]
    | false => exact congrArg Host.Outcome.next (State.onDataByte_void hvoid b)
  case parity => rw [exec_callRow, State.onCallByte_badParity hset hact hp]
  case heard =>
    by_cases hr : s.polled
    · have hidle := hr.ne_idle
      have hmaster := hr.ne_master
      rw [exec_callRow_polled hset hact hp hr]
      exact congrArg _ (State.reaction_none (s := s.heardCall) ((hnone.resolve_left hidle).resolve_left hmaster) p)
    · rw [exec_callRow, State.onCallByte_unpolled hset hact hp hr]

/-- A poll of this device is counted; with nothing to send that is all. -/
theorem State.reactPoll_empty {s : State} (haddr : s.myAddr ≠ 0) (he : s.txEmpty = true) :
    s.reactPoll s.myAddr = { s with oppSeq := s.oppSeq + 1 } := by
  rw [State.reactPoll, if_pos ⟨haddr, rfl⟩]
  simp only [State.readTx_empty (s := { s with oppSeq := s.oppSeq + 1 }) he]

/-- A poll of this device is counted, and the oldest TX Message is loaded without its byte 0. -/
theorem State.reactPoll_loads {s : State} (haddr : s.myAddr ≠ 0) (htx : s.TxOk) (hbuf : s.txBuf.length = 10)
    (he : s.txEmpty = false) :
    ∃ m r, s.txRing.Loses s.params.cap s.params.syncLag r m ∧
      s.reactPoll s.myAddr = { s with oppSeq := s.oppSeq + 1, txRing := r }.loaded (m.drop 1) false false := by
  obtain ⟨m, r, hread, hloses, hlen⟩ := State.readTx_loses (s := { s with oppSeq := s.oppSeq + 1 }) htx he
  refine ⟨m, r, hloses, ?_⟩
  have hfits : (m.drop 1).length ≤ 10 := by
    rw [List.length_drop]
    omega
  rw [State.reactPoll, if_pos ⟨haddr, rfl⟩]
  simp only [hread]
  exact State.startTx_eq (s := { s with oppSeq := s.oppSeq + 1, txRing := r }) hbuf hfits false false

/-- Settles O18: the poll's reaction, after the parser's reset, which leaves the TX ring alone. -/
theorem pollCallByteAnswered : Obligations.PollCallByteAnswered := by
  intro p s hset hact hrole haddr hp htx hbuf
  have hexec := exec_callRow_polled hset hact hp hrole
  refine ⟨fun he => ?_, fun he => ?_⟩
  · have hreact := State.reactPoll_empty (s := s.heardCall) haddr he
    exact hexec.trans (congrArg _ hreact)
  obtain ⟨m, r, hloses, hreact⟩ := State.reactPoll_loads (s := s.heardCall) haddr htx hbuf he
  exact ⟨m, r, hloses, hexec.trans (congrArg _ hreact)⟩

/-- Settles O19: the reactions of the classes MSG and ACKREQ at this device's address. -/
theorem msgAndAckreqCallBytes : Obligations.MsgAndAckreqCallBytes := by
  intro p a s hset hact hrole
  refine ⟨fun hp haddr => ?msg, fun hp hzero haddr hbuf => ?ackreq⟩
  case msg =>
    exact (exec_callRow_polled hset hact hp hrole).trans (congrArg _ (if_pos haddr))
  case ackreq =>
    refine (exec_callRow_polled hset hact hp hrole).trans (congrArg _ ?_)
    have hfits : (frameAck s.params).length ≤ 10 := Nat.le_of_ble_eq_true rfl
    have hload := State.startTx_eq (s := s.heardCall) hbuf hfits false false
    exact (if_pos ⟨hzero, haddr⟩).trans hload

end Sys2Proof.Machine
end

section
/-! PROOFS. The transmitter-ready step, and a whole transmission (42_arbitrator.md R181, R190, R192). -/

namespace Sys2Proof.Machine

/-! ### One step (42_arbitrator.md R192) -/

theorem exec_txi_void {s : State} (h : s.setupDone = false ∨ s.txActive = false) : exec .txi s = .next s := by
  change execTxi s = _
  rw [execTxi, if_pos h]

section
variable {s : State} (hset : s.setupDone = true) (hact : s.txActive = true)
include hset hact

theorem exec_txi_sends (hidx : s.txIdx < s.txLen) : exec .txi s = .next s.sendByte := by
  change execTxi s = _
  rw [execTxi, if_neg (by simp [hset, hact]), if_pos hidx]

theorem exec_txi_ends (hidx : s.txLen ≤ s.txIdx) : exec .txi s = .next s.endTx := by
  change execTxi s = _
  rw [execTxi, if_neg (by simp [hset, hact]), if_neg (Nat.not_lt.2 hidx)]

end

/-- The next byte is the one of the buffer, which it has. -/
theorem State.sendByte_eq {s : State} {b : Byte} (hb : s.txBuf[s.txIdx]? = some b) :
    s.sendByte = { s with txIdx := s.txIdx + 1,
                          out := { s.out with tx := some (s.txMark0 && decide (s.txIdx = 0), b) } } := by
  have hbyte : byteAt s.txBuf s.txIdx = b := by
    rw [byteAt, List.getD_eq_getElem?_getD, hb, Option.getD_some]
  rw [State.sendByte, hbyte]
  rfl

/-- The end of a polled device's call byte opens the window. -/
theorem State.endTx_opens {s : State} (hopens : s.txOpensWin = true) (hrole : s.role = .master) :
    s.endTx = { s with txActive := false, txOpensWin := false, winOpen := true, winT0 := s.now,
                       rxaSt := .header, rxaCb := s.callByte, out := { s.out with txDone := true } } := by
  simp only [State.endTx, if_pos (And.intro hopens hrole), State.armParser]

theorem State.endTx_plain {s : State} (h : s.txOpensWin = false ∨ s.role ≠ .master) :
    s.endTx = { s with txActive := false, txOpensWin := false, out := { s.out with txDone := true } } := by
  have hno : ¬ (s.txOpensWin = true ∧ s.role = .master) := by
    rintro ⟨hopens, hrole⟩
    exact h.elim (fun h => by simp [hopens] at h) (· hrole)
  simp only [State.endTx, if_neg hno]

/-- Settles O23: void, the next byte, or the end, by the position in the buffer. -/
theorem transmitterReady : Obligations.TransmitterReady := by
  refine fun s => ⟨exec_txi_void, fun hset hact =>
    ⟨fun b hidx hb => ?_, fun hidx hopens hrole => ?_, fun hidx h => ?_⟩⟩
  · rw [exec_txi_sends hset hact hidx, State.sendByte_eq hb]
  · rw [exec_txi_ends hset hact hidx, State.endTx_opens hopens hrole]
  · rw [exec_txi_ends hset hact hidx, State.endTx_plain h]

/-! ### A whole transmission (42_arbitrator.md R181, R190, R192) -/

theorem State.endTx_done (s : State) : s.endTx.txActive = false ∧ s.endTx.out.txDone = true := by
  unfold State.endTx
  simp only
  split <;> exact ⟨rfl, rfl⟩

/-- The end puts no byte out that the ports did not hold. -/
theorem State.endTx_tx (s : State) : s.endTx.out.tx = s.out.tx := by
  unfold State.endTx
  simp only
  split <;> rfl

theorem txiRun_succ {s t : State} (h : exec .txi { s with out := Outputs.quiet } = .next t) (n : Nat) :
    txiRun (n + 1) s = (t.out.tx.toList ++ (txiRun n t).1, (txiRun n t).2) := by
  simp only [txiRun, h]

section
variable {s : State} (hset : s.setupDone = true) (hact : s.txActive = true)
include hset hact

theorem txiRun_sends (hidx : s.txIdx < s.txLen) (n : Nat) :
    txiRun (n + 1) s =
      ({ s with out := Outputs.quiet }.sendByte.out.tx.toList ++ (txiRun n { s with out := Outputs.quiet }.sendByte).1,
        (txiRun n { s with out := Outputs.quiet }.sendByte).2) :=
  txiRun_succ (exec_txi_sends (s := { s with out := Outputs.quiet }) hset hact hidx) n

/-- While bytes are left the transmission goes on. -/
theorem txiRun_active {n : Nat} (hn : s.txIdx + n ≤ s.txLen) : (txiRun n s).2.txActive = true := by
  induction n generalizing s with
  | zero => exact hact
  | succ n ih =>
    rw [txiRun_sends hset hact (by omega)]
    exact ih (s := { s with out := Outputs.quiet }.sendByte) hset hact
      (show s.txIdx + 1 + n ≤ s.txLen by omega)

/-- From any position on, one step for each byte left emits these bytes, and one step more ends the transmission. -/
theorem txiRun_rest {n : Nat} (hbuf : s.txLen ≤ s.txBuf.length) (hn : s.txIdx + n = s.txLen) :
    (txiRun (n + 1) s).1 =
        ((s.txBuf.take s.txLen).drop s.txIdx).mapIdx (fun i b => (s.txMark0 && decide (i + s.txIdx = 0), b)) ∧
      (txiRun (n + 1) s).2.txActive = false ∧ (txiRun (n + 1) s).2.out.txDone = true := by
  induction n generalizing s with
  | zero =>
    have hend := exec_txi_ends (s := { s with out := Outputs.quiet }) hset hact (show s.txLen ≤ s.txIdx by omega)
    have hnone : (s.txBuf.take s.txLen).drop s.txIdx = [] :=
      List.drop_eq_nil_of_le ((List.length_take_le _ _).trans (by omega))
    rw [txiRun_succ hend, State.endTx_tx, hnone]
    exact ⟨rfl, State.endTx_done _⟩
  | succ n ih =>
    have hidx : s.txIdx < s.txBuf.length := by omega
    have hnext : { s with out := Outputs.quiet }.sendByte = _ :=
      State.sendByte_eq (s := { s with out := Outputs.quiet }) (List.getElem?_eq_getElem hidx)
    have hlist : (s.txBuf.take s.txLen).drop s.txIdx =
        s.txBuf[s.txIdx] :: (s.txBuf.take s.txLen).drop (s.txIdx + 1) := by
      rw [List.drop_eq_getElem_cons (by rw [List.length_take]; omega), List.getElem_take]
    obtain ⟨hbytes, hended⟩ := ih (s := { s with out := Outputs.quiet }.sendByte) hset hact hbuf
      (show s.txIdx + 1 + n = s.txLen by omega)
    rw [txiRun_sends hset hact (by omega)]
    refine ⟨?_, hended⟩
    rw [hbytes, hlist, List.mapIdx_cons, hnext, Nat.zero_add]
    simp only [Option.toList_some, List.singleton_append, Nat.add_assoc, Nat.add_comm 1]

end

/-- Settles O24: the run from position 0. -/
theorem transmissionTakesNPlusOne : Obligations.TransmissionTakesNPlusOne := by
  intro s hset hact hidx hbuf hlen
  obtain ⟨hbytes, hidle, hdone⟩ := txiRun_rest (n := s.txLen) hset hact (hbuf.symm ▸ hlen) (by omega)
  refine ⟨?_, hidle, hdone, fun n hn => txiRun_active hset hact (by omega)⟩
  simpa only [hidx, List.drop_zero, Nat.add_zero] using hbytes

end Sys2Proof.Machine
end

section
/-! PROOFS. POLL: its three parts, the abandonment, and the step of each role (42_arbitrator.md R195 to R222). -/

namespace Sys2Proof.Machine

/-! ### The three parts (42_arbitrator.md R195) -/

theorem exec_poll_unset {s : State} (h : s.setupDone = false) :
    exec .poll s = .next (s.rejected .eNotSetup 0 .notSetup) := by
  change execPoll s = _
  rw [execPoll, if_pos h, State.failCmd_eNotSetup]

theorem exec_poll_setup {s u : State} (h : s.setupDone = true) (hd : drain s = .next u) :
    exec .poll s = .next ((u.roleStep.abandon.respond .ok 0).limitRaised s.out.raised.length) :=
  execPoll_setup h hd

/-- Finishing a POLL keeps the first two conditions that it raised. -/
theorem State.finish_eq {s : State} {l es : List ErrCond} (h : s.out.raised = l ++ es) :
    (s.abandon.respond .ok 0).limitRaised l.length =
      { s with out := { s.out with raised := l ++ es.take 2 } }.abandon.answered .ok 0 :=
  State.limitRaised_append (s := s.abandon.respond .ok 0) h

/-- With no Message to drain, POLL is the role's step, which raises at most two conditions. -/
theorem exec_poll_empty {s : State} (h : s.setupDone = true) (he : s.rxEmpty = true) :
    exec .poll s = .next (s.roleStep.abandon.answered .ok 0) := by
  have hdrain : drain s = .next s := by
    rcases drain_cases s with ⟨-, hd⟩ | ⟨hne, -⟩
    · exact hd
    · exact absurd (he.symm.trans hne) (by decide)
  obtain ⟨es, hes, hraised⟩ := s.roleStep_effect.reports.raised
  have hfew : (s.roleStep.abandon.respond .ok 0).out.raised.length ≤ s.out.raised.length + 2 := by
    have hlen := congrArg List.length hraised
    rw [List.length_append] at hlen
    exact hlen.trans_le (Nat.add_le_add_left hes _)
  rw [exec_poll_setup h hdrain, State.limitRaised_eq hfew, State.respond_eq]

theorem drain_read {s : State} {m : Message} {r : Ring}
    (hread : s.rxRing.tryRead s.params.cap s.params.syncLag = some (m, r)) :
    drain s = if verify m then dispatch m { s with rxRing := r } else .next ({ s with rxRing := r }.raise .checksum) := by
  rw [drain, State.readRx, hread]
  rfl

/-- Settles O38: the drained Message's effect, the role's step on it, and the record of both cut at two. -/
theorem pollRunsThreeParts : Obligations.PollRunsThreeParts := by
  intro s hrx
  obtain ⟨-, hok⟩ := hrx
  refine ⟨exec_poll_unset, exec_poll_empty, fun hset hne => ?_⟩
  obtain ⟨m, r, hread, hloses, -⟩ := Ring.tryRead_loses hok hne
  obtain ⟨u, hdrain, heff, -⟩ := drain_effect s
  obtain ⟨es, -, hraised⟩ := (heff.trans u.roleStep_effect).reports.raised
  have hexec := (exec_poll_setup hset hdrain).trans (congrArg _ (State.finish_eq hraised))
  refine ⟨m, r, u, es, hloses, fun hv => ?_, fun hv => ?_, hraised, hexec⟩
  · rw [← hdrain, drain_read hread, if_pos hv]
  · exact Host.Outcome.next.inj (hdrain.symm.trans ((drain_read hread).trans (if_neg (by simp [hv]))))

/-! ### Abandonment (42_arbitrator.md R222) -/

theorem State.stale_eq_false {s : State} {seq : BitVec 8} :
    s.stale seq = false ↔ (s.oppSeq.toNat + 256 - seq.toNat) % 256 < s.params.abandonOpps := by
  have hseq := seq.isLt
  rw [State.stale, decide_eq_false_iff_not, Nat.not_le, BitVec.toNat_sub,
    show 2 ^ 8 - seq.toNat + s.oppSeq.toNat = s.oppSeq.toNat + 256 - seq.toNat by omega]

theorem State.abandon_pendInfo_iff (s : State) : s.abandon.pendInfo = true ↔
    s.pendInfo = true ∧ (s.oppSeq.toNat + 256 - s.pendInfoSeq.toNat) % 256 < s.params.abandonOpps := by
  rw [State.abandon_pendInfo, Bool.and_eq_true, Bool.not_eq_true', State.stale_eq_false]

theorem State.abandon_pendFunc_iff (s : State) : s.abandon.pendFunc = true ↔
    s.pendFunc = true ∧ (s.oppSeq.toNat + 256 - s.pendFuncSeq.toNat) % 256 < s.params.abandonOpps := by
  rw [State.abandon_pendFunc, Bool.and_eq_true, Bool.not_eq_true', State.stale_eq_false]

/-- Settles O44: what abandonment leaves pending is not stale, and nothing after it in a POLL touches it. -/
theorem pollAbandonsStaleRequests : Obligations.PollAbandonsStaleRequests := by
  refine ⟨fun s => ⟨s.abandon_pendInfo_iff, s.abandon_pendFunc_iff, rfl⟩, fun s t hset hpoll => ?_⟩
  obtain ⟨u, hdrain⟩ := drain_next s
  obtain rfl := Host.Outcome.next.inj ((exec_poll_setup hset hdrain).symm.trans hpoll)
  generalize u.roleStep = v
  exact ⟨fun h => (v.abandon_pendInfo_iff.1 h).2, fun h => (v.abandon_pendFunc_iff.1 h).2⟩

/-! ### Idle and SlaveInit (42_arbitrator.md R196, R210) -/

theorem State.roleStep_idle {s : State} (h : s.role = .idle) : s.roleStep = s.idleStep := by
  rw [State.roleStep, h]

theorem State.roleStep_master {s : State} (h : s.role = .master) : s.roleStep = s.masterStep := by
  rw [State.roleStep, h]

theorem State.roleStep_slaveInit {s : State} (h : s.role = .slaveInit) : s.roleStep = s.slaveInitStep := by
  rw [State.roleStep, h]

theorem State.roleStep_slave {s : State} (h : s.role = .slave) : s.roleStep = s.slaveStep := by
  rw [State.roleStep, h]

theorem State.idleStep_joins {s : State} (ha : s.auto = true) (hc : s.cbSeen = true) :
    s.idleStep = { s with role := .slaveInit, cbSeen := false, missCnt := 0 } := by
  rw [State.idleStep, if_pos ⟨ha, hc⟩]

theorem State.idleStep_leads {s : State} (h : s.auto = false ∨ s.cbSeen = false) :
    s.idleStep = { s with role := .master, cbSeen := false, missCnt := 0 } := by
  have hno : ¬ (s.auto = true ∧ s.cbSeen = true) := by
    rcases h with h | h <;> simp [h]
  rw [State.idleStep, if_neg hno]

theorem State.blames_nil (s : State) : s.blames [] = s := by
  rw [State.blames, List.append_nil]

/-- A reply of a Message's length is queued or lost, whatever is done with the state after. -/
theorem State.reply_replies {s : State} (htx : s.TxOk) {cb : Byte} {frame : List Byte} (hlen : frame.length ≤ 9)
    (k : State → State) :
    s.Replies (cb :: frame) (fun r es => k ({ s with txRing := r }.blames es)) (.next (k (s.reply cb frame))) := by
  obtain ⟨-, hok⟩ := htx
  rcases s.reply_cases cb frame with ⟨hfull, heq⟩ | ⟨hroom, r, henq, heq⟩
  · refine ⟨fun h => absurd (h.symm.trans hfull) (by decide), fun _ => ?_⟩
    rw [heq, State.raise_eq]
  · refine ⟨fun _ => ?_, fun h => absurd (h.symm.trans hroom) (by decide)⟩
    obtain ⟨r', henq', hgain, -⟩ := Ring.enqueue_gains hok (m := cb :: frame) (Nat.succ_le_succ hlen) hroom
    obtain rfl : r' = r := Option.some.inj (henq'.symm.trans henq)
    refine ⟨r', hgain, ?_⟩
    rw [heq]
    exact congrArg (fun t => Host.Outcome.next (k t)) (State.blames_nil _).symm

theorem frameInit_length {p : Params} (h : p.initSeq.length ≤ 8) : (frameInit p).length ≤ 9 := by
  rw [frameInit, List.length_append, List.length_singleton]
  omega

/-- Settles O39: the two steps of R196 and the reply of R210. -/
theorem pollInIdleAndSlaveInit : Obligations.PollInIdleAndSlaveInit := by
  intro s hset he htx
  rw [exec_poll_empty hset he]
  refine ⟨fun hrole ha hc => ?_, fun hrole h => ?_, fun hrole hinit => ?_⟩
  · rw [State.roleStep_idle hrole, State.idleStep_joins ha hc]
  · rw [State.roleStep_idle hrole, State.idleStep_leads h]
  · rw [State.roleStep_slaveInit hrole]
    exact State.reply_replies htx (frameInit_length hinit)
      fun t => { t with role := .slave, missCnt := 0, winT0 := t.now }.abandon.answered .ok 0

/-! ### Master: the slot's end, and the next slot (42_arbitrator.md R198 to R203) -/

/-- Times of `TIME_W` bits: the difference modulo the wrap (00_scope.md R17). -/
theorem State.elapsed_eq {s : State} {t0 : Nat} (hnow : s.now < 2 ^ s.params.timeW) (ht : t0 < 2 ^ s.params.timeW) :
    s.elapsed t0 = (s.now + 2 ^ s.params.timeW - t0) % 2 ^ s.params.timeW := by
  rw [State.elapsed, Nat.mod_eq_of_lt hnow, Nat.mod_eq_of_lt ht]

theorem State.elapsed_forward {s : State} {t0 : Nat} (hnow : s.now < 2 ^ s.params.timeW) (hle : t0 ≤ s.now) :
    s.elapsed t0 = s.now - t0 := by
  rw [State.elapsed_eq hnow (hle.trans_lt hnow), Nat.add_comm, Nat.add_sub_assoc hle, Nat.add_mod_left,
    Nat.mod_eq_of_lt (by omega)]

theorem State.elapsed_wrapped {s : State} {t0 : Nat} (ht : t0 < 2 ^ s.params.timeW) (hlt : s.now < t0) :
    s.elapsed t0 = s.now + 2 ^ s.params.timeW - t0 := by
  rw [State.elapsed_eq (hlt.trans ht) ht, Nat.mod_eq_of_lt (by omega)]

/-- A foreign call byte makes a master that may switch yield. -/
theorem State.masterStep_yields {s : State} (hc : s.cbSeen = true) (ha : s.auto = true) :
    s.masterStep = { s with cbSeen := false, role := .slaveInit, missCnt := 0, winOpen := false }.cut := by
  rw [State.masterStep, if_pos hc]
  exact (if_pos ha).trans (State.closeWindow_eq _)

/-- A master that does not yield forgets the call byte and goes on with its slot. -/
theorem State.masterStep_stays {s : State} (h : s.cbSeen = false ∨ s.auto = false) :
    s.masterStep = { s with cbSeen := false }.masterSlot := by
  cases hc : s.cbSeen with
  | true =>
    have ha : s.auto = false := h.resolve_left (by simp [hc])
    rw [State.masterStep, if_pos hc]
    exact if_neg (by simp [ha])
  | false =>
    have hsame : { s with cbSeen := false } = s := by rw [← hc]
    rw [State.masterStep, if_neg (by simp [hc]), hsame]

theorem State.masterSlot_waits {s : State}
    (h : s.txActive = true ∨ (s.winOpen = true ∧ s.elapsed s.winT0 < s.params.tWindow)) : s.masterSlot = s := by
  rcases h with h | ⟨hopen, hleft⟩
  · rw [State.masterSlot, if_pos h]
  · rw [State.masterSlot, if_pos hopen, if_pos hleft, ite_self]

/-- Settles O40: the time elapsed on either side of the wrap, and the first three lines of the step. -/
theorem pollMasterYieldsOrWaits : Obligations.PollMasterYieldsOrWaits := by
  refine ⟨fun s hnow ht => ⟨State.elapsed_eq hnow ht, State.elapsed_forward hnow, State.elapsed_wrapped ht⟩,
    fun s hset he hrole => ?_⟩
  rw [exec_poll_empty hset he, State.roleStep_master hrole]
  refine ⟨fun hc ha => ?_, fun hstays hwaits => ?_⟩
  · rw [State.masterStep_yields hc ha]
  · rw [State.masterStep_stays hstays, State.masterSlot_waits (s := { s with cbSeen := false }) hwaits]

/-- With the transmitter idle and no open window that runs, the slot ends and the next address is served. -/
theorem State.masterSlot_ends {s : State} (hact : s.txActive = false)
    (h : s.winOpen = false ∨ s.params.tWindow ≤ s.elapsed s.winT0) : s.masterSlot = s.slotEnded.serveNext := by
  rw [State.masterSlot, if_neg (by simp [hact])]
  cases hw : s.winOpen with
  | true =>
    have hover : ¬ s.elapsed s.winT0 < s.params.tWindow := Nat.not_lt.2 (h.resolve_left (by simp [hw]))
    rw [if_pos rfl, if_neg hover, State.closeWindow_eq, State.slotEnded, if_pos hw]
  | false => rw [if_neg (by simp), State.slotEnded, if_neg (by simp [hw])]

/-- The end of a slot writes the window, the parser, the RX ring's cursor and the record, and nothing else. -/
theorem State.slotEnded_frame (s : State) :
    { s.slotEnded with winOpen := s.winOpen, rxaSt := s.rxaSt, rxRing := s.rxRing, out := s.out } = s := by
  unfold State.slotEnded
  split <;> rfl

/-- What the end of a slot does not write is as before. -/
theorem State.slotEnded_same {α : Sort*} (s : State) (f : State → α) :
    f { s.slotEnded with winOpen := s.winOpen, rxaSt := s.rxaSt, rxRing := s.rxRing, out := s.out } = f s :=
  congrArg f s.slotEnded_frame

theorem State.slotEnded_cbSeen (s : State) (b : Bool) :
    { s with cbSeen := b }.slotEnded = { s.slotEnded with cbSeen := b } := by
  unfold State.slotEnded
  simp only
  split <;> rfl

/-- POLL of a master that stays and whose slot is over serves the next address. -/
theorem exec_poll_slotOver {s : State} (hset : s.setupDone = true) (he : s.rxEmpty = true) (hrole : s.role = .master)
    (hstays : s.cbSeen = false ∨ s.auto = false) (hact : s.txActive = false)
    (hover : s.winOpen = false ∨ s.params.tWindow ≤ s.elapsed s.winT0) :
    exec .poll s = .next ({ s.slotEnded with cbSeen := false }.serveNext.abandon.answered .ok 0) := by
  rw [exec_poll_empty hset he, State.roleStep_master hrole, State.masterStep_stays hstays,
    State.masterSlot_ends (s := { s with cbSeen := false }) hact hover, State.slotEnded_cbSeen]

/-- Another device's address: its call byte is sent and will open a window. -/
theorem State.serveNext_polls {s : State} (hbuf : s.txBuf.length = 10) (hother : nextAddr s.pollAddr ≠ s.myAddr) :
    s.serveNext = { s with pollAddr := nextAddr s.pollAddr, callByte := mkCb .poll (nextAddr s.pollAddr) }.loaded
      [mkCb .poll (nextAddr s.pollAddr)] true true := by
  rw [State.serveNext]
  refine (if_neg hother).trans ?_
  exact State.startTx_eq (s := { s with pollAddr := nextAddr s.pollAddr, callByte := mkCb .poll (nextAddr s.pollAddr) })
    hbuf (Nat.le_of_ble_eq_true rfl) true true

/-- Settles O41: the slot ends and another device's address is served. -/
theorem pollMasterPollsNextDevice : Obligations.PollMasterPollsNextDevice := by
  rintro s _ hset he hrole hstays hact hover hbuf rfl hother
  rw [exec_poll_slotOver hset he hrole hstays hact hover]
  have haddr : s.slotEnded.pollAddr = s.pollAddr := s.slotEnded_same State.pollAddr
  have hmine : s.slotEnded.myAddr = s.myAddr := s.slotEnded_same State.myAddr
  have hbuf' : s.slotEnded.txBuf.length = 10 := (s.slotEnded_same (·.txBuf.length)).trans hbuf
  have hserve := State.serveNext_polls (s := { s.slotEnded with cbSeen := false }) hbuf' (by
    simp only [haddr, hmine]
    exact hother)
  rw [hserve]
  simp only [haddr]
  rfl

/-- This device's own address: the self slot. -/
theorem State.serveNext_self {s : State} (hself : nextAddr s.pollAddr = s.myAddr) :
    s.serveNext = { s with pollAddr := s.myAddr }.selfSlot := by
  rw [State.serveNext]
  refine (if_pos hself).trans ?_
  rw [hself]

theorem State.selfSlot_empty {s : State} (he : s.txEmpty = true) :
    s.selfSlot = { s with oppSeq := s.oppSeq + 1 } := by
  rw [State.selfSlot]
  simp only [State.readTx_empty (s := { s with oppSeq := s.oppSeq + 1 }) he]

/-- Byte 0 as a master sends it: the broadcast's call byte is 0xC0. -/
theorem selfCallByte_cons (cb : Byte) (rest : List Byte) :
    selfCallByte (cb :: rest) = if cbClass cb = .msg then cb else 0xC0 := rfl

/-- The oldest TX Message, of a length a Message has, leaves with a master's call byte. -/
theorem State.selfSlot_sends {s : State} (htx : s.TxOk) (hbuf : s.txBuf.length = 10) (he : s.txEmpty = false)
    (hmsgs : ∀ m ∈ s.txQueue, lengthOk m) :
    ∃ cb rest r, s.txRing.Loses s.params.cap s.params.syncLag r (cb :: rest) ∧
      s.selfSlot = { s with oppSeq := s.oppSeq + 1, txRing := r }.loaded
        ((if cbClass cb = CbClass.msg then cb else 0xC0) :: rest) true false := by
  obtain ⟨m, r, hread, hloses, hlen⟩ := State.readTx_loses (s := { s with oppSeq := s.oppSeq + 1 }) htx he
  have hmem : m ∈ s.txQueue := by
    obtain ⟨hcontents, -⟩ := hloses
    have hqueue : s.txQueue = m :: r.contents s.params.cap := hcontents
    exact hqueue ▸ List.mem_cons_self
  obtain ⟨cb, rest, rfl⟩ : ∃ cb rest, m = cb :: rest := by
    obtain ⟨hlong, -⟩ := hmsgs m hmem
    exact List.exists_cons_of_length_pos (by omega)
  refine ⟨cb, rest, r, hloses, ?_⟩
  rw [State.selfSlot]
  simp only [hread, selfCallByte_cons]
  exact State.startTx_eq (s := { s with oppSeq := s.oppSeq + 1, txRing := r })
    (bs := (if cbClass cb = CbClass.msg then cb else 0xC0) :: rest) hbuf hlen true false

/-- Settles O42: the slot ends and this device's own address is served. -/
theorem pollMasterSelfSlot : Obligations.PollMasterSelfSlot := by
  intro s hset he hrole hstays hact hover hbuf htx haddr
  have hself : nextAddr s.slotEnded.pollAddr = s.slotEnded.myAddr :=
    (s.slotEnded_same fun v => nextAddr v.pollAddr = v.myAddr).mpr haddr.symm
  have hmine : s.slotEnded.myAddr = s.myAddr := s.slotEnded_same State.myAddr
  have hopp : s.slotEnded.oppSeq = s.oppSeq := s.slotEnded_same State.oppSeq
  have hempty : s.slotEnded.txEmpty = s.txEmpty := s.slotEnded_same State.txEmpty
  rw [exec_poll_slotOver hset he hrole hstays hact hover,
    State.serveNext_self (s := { s.slotEnded with cbSeen := false }) hself]
  refine ⟨fun hnone => ?_, fun hmore hmsgs => ?_⟩
  · have hslot := State.selfSlot_empty (s := { s.slotEnded with cbSeen := false, pollAddr := s.slotEnded.myAddr })
      (hempty.trans hnone)
    rw [hslot]
    simp only [hmine, hopp]
  · have htx' : s.slotEnded.TxOk := (s.slotEnded_same State.TxOk).mpr htx
    have hbuf' : s.slotEnded.txBuf.length = 10 := (s.slotEnded_same (·.txBuf.length)).trans hbuf
    have hqueue : s.slotEnded.txQueue = s.txQueue := s.slotEnded_same State.txQueue
    obtain ⟨cb, rest, r, hloses, hslot⟩ :=
      State.selfSlot_sends (s := { s.slotEnded with cbSeen := false, pollAddr := s.slotEnded.myAddr }) htx' hbuf'
        (hempty.trans hmore) (hqueue.symm ▸ hmsgs)
    have hloses' : s.txRing.Loses s.params.cap s.params.syncLag r (cb :: rest) :=
      (s.slotEnded_same fun v => v.txRing.Loses v.params.cap v.params.syncLag r (cb :: rest)).mp hloses
    refine ⟨cb, rest, r, hloses', ?_⟩
    rw [hslot]
    simp only [hmine, hopp]

/-! ### Slave (42_arbitrator.md R212, R216, R218) -/

theorem State.countCycle_seen {s : State} (hc : s.cbSeen = true) :
    s.countCycle = { s with cbSeen := false, missCnt := 0, winT0 := s.now } := by
  rw [State.countCycle, if_pos hc]

theorem State.countCycle_within {s : State} (hc : s.cbSeen = false) (ht : s.elapsed s.winT0 < s.params.tWindow) :
    s.countCycle = s := by
  rw [State.countCycle, if_neg (by simp [hc]), if_neg (Nat.not_le.2 ht)]

theorem missNext_eq (c : BitVec 8) : missNext c = BitVec.ofNat 8 (min 255 (c.toNat + 1)) := by
  unfold missNext
  split <;> bv_omega

theorem State.countCycle_missed {s : State} (hc : s.cbSeen = false) (ht : s.params.tWindow ≤ s.elapsed s.winT0) :
    s.countCycle = { s with missCnt := BitVec.ofNat 8 (min 255 (s.missCnt.toNat + 1)), winT0 := s.now } := by
  rw [State.countCycle, if_neg (by simp [hc]), if_pos ht, missNext_eq]

theorem missCount_toNat (n : Nat) : (BitVec.ofNat 8 (min 255 n)).toNat = min 255 n := by
  rw [BitVec.toNat_ofNat, Nat.mod_eq_of_lt (by omega)]

/-- Below the bound, or with switching disabled, the role stays. -/
theorem State.slaveStep_stays {s t : State} (ht : s.countCycle = t)
    (h : t.auto = false ∨ t.missCnt.toNat < t.params.slaveCycleMax) : s.slaveStep = t := by
  have hno : ¬ (t.auto = true ∧ t.params.slaveCycleMax ≤ t.missCnt.toNat) := by
    rintro ⟨ha, hmax⟩
    exact h.elim (fun h => by simp [ha] at h) (Nat.not_lt.2 hmax)
  rw [State.slaveStep, ht]
  exact if_neg hno

/-- At the bound, with switching enabled, the device takes over. -/
theorem State.slaveStep_takesOver {s t : State} (ht : s.countCycle = t) (ha : t.auto = true)
    (hmax : t.params.slaveCycleMax ≤ t.missCnt.toNat) :
    s.slaveStep = { t with role := .master, missCnt := 0, winOpen := false }.cut.blames [.roleDesync] := by
  rw [State.slaveStep, ht]
  refine (if_pos ⟨ha, hmax⟩).trans ?_
  rw [State.closeWindow_eq, State.raise_eq]

/-- Settles O43: the count by the call byte seen and the time elapsed, then the bound. -/
theorem pollSlaveCountsAndTakesOver : Obligations.PollSlaveCountsAndTakesOver := by
  intro s hset he hrole hmax1
  rw [exec_poll_empty hset he, State.roleStep_slave hrole]
  refine ⟨fun hc => ?_, fun hc ht h => ?_, fun hc ht h => ?_, fun hc ha ht hmax => ?_, fun hc ha ht hmax => ?_⟩
  · rw [State.slaveStep_stays (State.countCycle_seen hc) (.inr hmax1)]
  · rw [State.slaveStep_stays (State.countCycle_within hc ht) h]
  · rw [State.slaveStep_stays (State.countCycle_missed hc ht) (h.imp_right (missCount_toNat _).trans_lt)]
  · rw [State.slaveStep_takesOver (State.countCycle_within hc ht) ha hmax]
  · rw [State.slaveStep_takesOver (State.countCycle_missed hc ht) ha (hmax.trans_eq (missCount_toNat _).symm)]

end Sys2Proof.Machine
end

section
/-! PROOFS. The role: what POLL makes of it, and that no other operation but SETUP writes it (42_arbitrator.md R219). -/

namespace Sys2Proof.Machine

/-! ### The role after the step of each role (42_arbitrator.md R196, R200, R210, R216) -/

theorem State.selfSlot_role (s : State) : s.selfSlot.role = s.role := by
  rw [State.selfSlot]
  rcases State.readTx_cases { s with oppSeq := s.oppSeq + 1 } with ⟨-, h⟩ | ⟨-, m, r, -, h⟩ 
  · simp only [h]
  · simp only [h, State.startTx_role]

theorem State.serveNext_role (s : State) : s.serveNext.role = s.role := by
  rw [State.serveNext]
  split
  · exact State.selfSlot_role _
  · rfl

theorem State.masterSlot_role (s : State) : s.masterSlot.role = s.role := by
  rw [State.masterSlot]
  split
  · rfl
  · split
    · split
      · rfl
      · rw [State.serveNext_role, State.closeWindow_eq]
    · exact s.serveNext_role

theorem State.masterStep_role {s : State} (hrole : s.role = .master) :
    s.masterStep.role = if s.auto = true ∧ s.cbSeen = true then .slaveInit else .master := by
  by_cases h : s.auto = true ∧ s.cbSeen = true
  · obtain ⟨ha, hc⟩ := id h
    rw [State.masterStep_yields hc ha, if_pos h]
  · have hstays : s.cbSeen = false ∨ s.auto = false := by
      rw [not_and_or, Bool.not_eq_true, Bool.not_eq_true] at h
      exact h.symm
    rw [State.masterStep_stays hstays, State.masterSlot_role, if_neg h]
    exact hrole

theorem State.slaveInitStep_role (s : State) : s.slaveInitStep.role = .slave := rfl

/-- The count writes no field that the role's step tests but the count. -/
theorem State.countCycle_same (s : State) :
    s.countCycle.role = s.role ∧ s.countCycle.auto = s.auto ∧ s.countCycle.params = s.params := by
  unfold State.countCycle
  split
  · exact ⟨rfl, rfl, rfl⟩
  · split <;> exact ⟨rfl, rfl, rfl⟩

theorem State.slaveStep_role {s : State} (hrole : s.role = .slave) :
    s.slaveStep.role =
      if s.auto = true ∧ s.params.slaveCycleMax ≤ s.countCycle.missCnt.toNat then .master else .slave := by
  obtain ⟨hr, ha, hp⟩ := s.countCycle_same
  rw [State.slaveStep, ha, hp]
  split
  · rw [State.closeWindow_eq]
    rfl
  · exact hr.trans hrole

theorem State.finish_role (s : State) (n : Nat) : ((s.abandon.respond .ok 0).limitRaised n).role = s.role := rfl

/-! ### Draining leaves what the role's step tests (42_arbitrator.md R195) -/

/-- The state `t` with all that draining writes put back to what it is in `s`. -/
def State.withDrainPart (t s : State) : State := { t.withHostPart s with rxRing := s.rxRing }

/-- A Message taken from the RX ring and then what the Dispatcher writes. -/
theorem State.HostEffect.drained {n k : Nat} {s t : State} {r : Ring} (h : { s with rxRing := r }.HostEffect n k t) :
    t.withDrainPart s = s :=
  congrArg (fun u : State => { u with rxRing := s.rxRing }) h.frame

theorem drain_frame {s t : State} (h : drain s = .next t) : t.withDrainPart s = s := by
  rcases drain_cases s with ⟨-, hd⟩ | ⟨-, m, r, -, ⟨-, hd⟩ | ⟨-, hd⟩⟩
  · obtain rfl := Host.Outcome.next.inj (hd.symm.trans h)
    rfl
  · exact (holds_of_next (dispatch_effect m { s with rxRing := r }) (hd.symm.trans h)).drained
  · obtain rfl := Host.Outcome.next.inj (hd.symm.trans h)
    exact (State.raise_effect { s with rxRing := r } .checksum).drained

/-- What draining does not write is as before. -/
theorem drain_same {α : Type} {s t : State} (h : drain s = .next t) (f : State → α) : f (t.withDrainPart s) = f s :=
  congrArg f (drain_frame h)

/-- The count looks at the call byte seen, the time and itself alone. -/
theorem State.countCycle_missCnt (s : State) :
    s.countCycle.missCnt =
      if s.cbSeen then 0 else if s.params.tWindow ≤ s.elapsed s.winT0 then missNext s.missCnt else s.missCnt := by
  unfold State.countCycle
  split
  · rfl
  · split <;> rfl

theorem drain_countCycle {s t : State} (h : drain s = .next t) : t.countCycle.missCnt = s.countCycle.missCnt := by
  have hseen : t.cbSeen = s.cbSeen := drain_same h State.cbSeen
  have hparams : t.params = s.params := drain_same h State.params
  have helapsed : t.elapsed t.winT0 = s.elapsed s.winT0 := drain_same h fun u => u.elapsed u.winT0
  have hmiss : t.missCnt = s.missCnt := drain_same h State.missCnt
  rw [State.countCycle_missCnt, State.countCycle_missCnt, hseen, hparams, helapsed, hmiss]

/-! ### No other operation (42_arbitrator.md R219) -/

theorem State.setRing_role (s : State) (q : RingId) (r : Ring) : (s.setRing q r).role = s.role := by
  cases q <;> rfl

theorem State.TxiEffect.role {s t : State} (h : s.TxiEffect t) : t.role = s.role :=
  (congrArg State.role h.frame :)

/-- Every operation but POLL and SETUP leaves the role. -/
theorem exec_keeps_role {i : Instr} (hpoll : i ≠ .poll) (hsetup : ∀ a0 a1 a2, i ≠ .setup a0 a1 a2) (s : State) :
    ∃ t, exec i s = .next t ∧ t.role = s.role := by
  have hframe := runFrame_effect i s
  cases i with
  | poll => exact absurd rfl hpoll
  | setup a0 a1 a2 => exact absurd rfl (hsetup a0 a1 a2)
  | cbPoll p a => exact (execCbPoll_effect p a s).imp fun _ ⟨h, he⟩ => ⟨h, he.role⟩
  | cbAckreq p a => exact (execCbAckreq_effect p a s).imp fun _ ⟨h, he⟩ => ⟨h, he.role⟩
  | cbMsg p a => exact (execCbMsg_effect p a s).imp fun _ ⟨h, he⟩ => ⟨h, he.role⟩
  | cbReserved p a => exact (execCbReserved_effect p a s).imp fun _ ⟨h, he⟩ => ⟨h, he.role⟩
  | rxi mark b => exact (execRxi_effect mark b s).imp fun _ ⟨h, he⟩ => ⟨h, he.role⟩
  | txi => exact (execTxi_effect s).imp fun t ⟨h, he⟩ => ⟨h, he.role⟩
  | setPower | getPower | getRole | locoClaim | locoBusyNote | pushDrive | pushFunc | getLocoInfo | getLocoFunc
  | pushTurnoutStatus | pushTurnoutCmd | setCvReadValue | setCvNack | setCvNackSc | pushFeedback | releaseSlot
  | pendTimeout | hostReserved => exact (hostRow_effect rfl s).imp fun _ ⟨h, he⟩ => ⟨h, he.role⟩
  | computeChecksum | verify | callByteParity | encodeFrame | isEmpty | isFull | requestBusy | holder | markBusy
  | release => exact ⟨_, rfl, rfl⟩
  | appendByte | commit | abortWrite => exact ⟨_, rfl, s.setRing_role _ _⟩
  | beginWrite q =>
    cases hf : (s.ring q).isFull s.params.cap with
    | true => exact ⟨_, exec_beginWrite_none hf, rfl⟩
    | false => exact ⟨_, exec_beginWrite_some hf, s.setRing_role _ _⟩
  | tryRead q =>
    cases he : (s.ring q).isEmpty with
    | true => exact ⟨_, exec_tryRead_none he, rfl⟩
    | false => exact ⟨_, exec_tryRead_some (Ring.tryRead_some.2 ⟨he, rfl, rfl⟩), s.setRing_role _ _⟩
  | enqueue m =>
    rcases s.enqueueTx_cases m with ⟨-, hnone⟩ | ⟨-, r, -, hsome⟩
    · exact ⟨_, exec_enqueue_full hnone, rfl⟩
    · exact ⟨_, exec_enqueue_room hsome, rfl⟩
  | _ => exact hframe.imp fun _ ⟨h, he⟩ => ⟨h, he.role⟩

/-! ### The statement -/

/-- SETUP with an address in range goes to Idle (45_host_commands.md R305). -/
theorem exec_setup_role {arg0 : BitVec 16} (hlow : 1 ≤ arg0.toNat) (hhigh : arg0.toNat ≤ 31) (arg1 : BitVec 8)
    (arg2 : BitVec 18) (s : State) : ∃ t, exec (.setup arg0 arg1 arg2) s = .next t ∧ t.role = .idle := by
  change ∃ t, execSetup arg0 arg1 arg2 s = .next t ∧ t.role = .idle
  rw [execSetup, if_pos ⟨hlow, hhigh⟩]
  exact ⟨_, rfl, rfl⟩

/-- Settles O45: the role's step on the drained state, and every other operation's effect. -/
theorem roleTransitions : Obligations.RoleTransitions := by
  refine ⟨fun s t hset hpoll => ?poll, fun s t hset hpoll => ?unset, fun arg0 arg1 arg2 s t hlow hhigh h => ?setup,
    fun i s t hpoll hsetup h => holds_of_next (exec_keeps_role hpoll hsetup s) h⟩
  case poll =>
    obtain ⟨u, hdrain⟩ := drain_next s
    obtain rfl := Host.Outcome.next.inj ((exec_poll_setup hset hdrain).symm.trans hpoll)
    rw [State.finish_role]
    have hrole : u.role = s.role := drain_same hdrain State.role
    have hauto : u.auto = s.auto := drain_same hdrain State.auto
    have hseen : u.cbSeen = s.cbSeen := drain_same hdrain State.cbSeen
    have hparams : u.params = s.params := drain_same hdrain State.params
    cases hr : s.role with
    | idle => rw [State.roleStep_idle (hrole.trans hr), State.idleStep_role, hauto, hseen]
    | master =>
      rw [State.roleStep_master (hrole.trans hr), State.masterStep_role (hrole.trans hr), hauto, hseen]
    | slaveInit => rw [State.roleStep_slaveInit (hrole.trans hr), State.slaveInitStep_role]
    | slave =>
      rw [State.roleStep_slave (hrole.trans hr), State.slaveStep_role (hrole.trans hr), hauto, hparams,
        drain_countCycle hdrain]
  case unset =>
    obtain rfl := Host.Outcome.next.inj ((exec_poll_unset hset).symm.trans hpoll)
    rfl
  case setup => exact holds_of_next (exec_setup_role hlow hhigh arg1 arg2 s) h

end Sys2Proof.Machine
end

section
/-! PROOFS. The Dispatcher's shared rules: replies and bookings in the terms of the statements, and frames read by their
rows (43_dispatcher.md R233 to R235, 30_encoding.md R117). -/

namespace Sys2Proof.Machine

/-! ### Notifying and replying (43_dispatcher.md R233, R234) -/

/-- A row that notifies its operands and does nothing else. -/
theorem announces_of_notify {i : Instr} {k : Nat} {n : Notification} (hkind : n.kind = k)
    (h : ∀ s, exec i s = .next (s.notify n)) : Announces i k n := fun s => by
  rw [h, State.notify_eq, hkind]

theorem State.powerNotify_eq (s : State) (p : Power) :
    s.powerNotify p = { s with power := p }.told (s.heard 0 (.power p)) :=
  State.notify_eq { s with power := p } (.power p)

theorem State.reply_lost {s : State} {cb : Byte} {frame : List Byte}
    (h : s.txRing.enqueue s.params.cap s.params.syncLag (cb :: frame) = none) : s.reply cb frame = s.raise .txFull := by
  rw [State.reply, State.enqueueTx, h, Option.map_none]

theorem State.reply_queued {s : State} {cb : Byte} {frame : List Byte} {r : Ring}
    (h : s.txRing.enqueue s.params.cap s.params.syncLag (cb :: frame) = some r) :
    s.reply cb frame = { s with txRing := r } := by
  rw [State.reply, State.enqueueTx, h, Option.map_some]
  rfl

theorem State.blames_blames (s : State) (es es' : List ErrCond) :
    (s.blames es).blames es' = s.blames (es ++ es') := by
  simp only [State.blames, List.append_assoc]

/-- A reply sent with a condition raised: the condition stands before the reply's own (60_exceptions.md R354). -/
theorem State.raise_reply_replies {s : State} (htx : s.TxOk) (e : ErrCond) {cb : Byte} {frame : List Byte}
    (hlen : frame.length ≤ 9) :
    s.Replies (cb :: frame) (fun r es => { s with txRing := r }.blames (e :: es))
      (.next ((s.raise e).reply cb frame)) := by
  have hreply := State.reply_replies (s := s.raise e) htx (cb := cb) hlen id
  have hraised : (fun (r : Ring) es => id ({ s.raise e with txRing := r }.blames es)) =
      fun r es => { s with txRing := r }.blames (e :: es) :=
    funext fun r => funext fun es => State.blames_blames { s with txRing := r } [e] es
  rw [hraised] at hreply
  exact hreply

theorem powerBroadcast_length (t : HdrMap) (p : Power) : (powerBroadcast t p).length ≤ 9 := by
  cases p <;> exact (FrameTemplate.build_length _ _).2

theorem frameBusy_length (t : HdrMap) (loco : LocoAddr) (slot : Nat) : (frameBusy t loco slot).length ≤ 9 :=
  (FrameTemplate.build_length _ _).2

theorem frameNotUnderstood_length (t : HdrMap) : (frameNotUnderstood t).length ≤ 9 :=
  (FrameTemplate.build_length _ _).2

/-! ### Slot-busy bookkeeping (43_dispatcher.md R235) -/

theorem State.bookedNotify_unslotted (s : State) (loco : LocoAddr) (n : Notification) :
    s.bookedNotify 0 loco n = s.notify n := rfl

theorem State.bookedNotify_of_granted {s t : State} {dev : DevAddr} {loco : LocoAddr} (h : s.book dev loco = (true, t))
    (n : Notification) : s.bookedNotify dev loco n = t.notify n := by
  rw [State.bookedNotify, h]

theorem State.bookedNotify_of_refused {s t : State} {dev : DevAddr} {loco : LocoAddr}
    (h : s.book dev loco = (false, t)) (n : Notification) : s.bookedNotify dev loco n = t := by
  rw [State.bookedNotify, h]

section
variable {s : State} {dev : DevAddr} {loco : LocoAddr} (hdev : dev ≠ 0)
include hdev

theorem State.book_marks (hfree : requestBusy s.slots (slotOfDev dev) loco = true) :
    s.book dev loco = (true, { s with slots := markBusy s.slots (slotOfDev dev) loco }) := by
  rw [State.book, if_neg hdev, if_pos hfree]

theorem State.book_notices (hbusy : requestBusy s.slots (slotOfDev dev) loco = false) {t : Nat}
    (hsome : holder s.slots loco = some t) :
    s.book dev loco = (false, (s.raise .busy).reply (mkCb .msg dev) (frameBusy s.params.hdrMap loco t)) := by
  rw [State.book, if_neg hdev, if_neg (Bool.eq_false_iff.1 hbusy), hsome]

end

/-- A table refuses an address only when some slot holds it. -/
theorem holder_of_refused {slots : List (Option LocoAddr)} {own : Nat} {loco : LocoAddr}
    (h : requestBusy slots own loco = false) : ∃ t, holder slots loco = some t := by
  rw [requestBusy, Bool.not_eq_false', heldByOther, List.any_eq_true] at h
  obtain ⟨t, ht, hheld⟩ := h
  rw [← Option.isSome_iff_exists, holder, List.find?_isSome]
  exact ⟨t, ht, (Bool.and_eq_true_iff.1 hheld).2⟩

/-- No address is held twice, so a slot that holds it is the one that `holder` names. -/
theorem State.holder_eq {s : State} (hslots : s.SlotsOk) {loco : LocoAddr} {t : Nat} (ht : t < 31)
    (hheld : s.slots.getD t none = some loco) : holder s.slots loco = some t := by
  obtain ⟨hcount, hunique⟩ := hslots
  cases h : holder s.slots loco with
  | none => exact absurd hheld ((holder_none hcount).1 h t ht)
  | some t' =>
    obtain ⟨ht', hheld'⟩ := holder_some hcount h
    by_contra hne
    have hempty := hunique t' ht' t ht (fun heq => hne (congrArg some heq)) (hheld'.trans hheld.symm)
    exact Option.some_ne_none loco (hheld'.symm.trans hempty)

/-- Marking a slot of the table changes that slot alone. -/
theorem State.markBusy_slotSet {s : State} (hslots : s.SlotsOk) {own : Nat} (hown : own < 31) (loco : LocoAddr) :
    s.SlotSet own (some loco) (markBusy s.slots own loco) := by
  obtain ⟨hcount, -⟩ := hslots
  exact ⟨(markBusy_length ..).trans hcount, markBusy_own (hcount.symm ▸ hown) loco,
    fun t _ hne => markBusy_other _ hne loco⟩

/-- A row that books and, if granted, notifies. -/
theorem books_of_bookedNotify {i : Instr} {dev : DevAddr} {loco : LocoAddr} {k : Nat} {n : Notification}
    (hkind : n.kind = k) (h : ∀ s, exec i s = .next (s.bookedNotify dev loco n)) : Books i dev loco k n := by
  intro s htx hslots
  obtain ⟨hcount, -⟩ := id hslots
  rw [h]
  refine ⟨fun h0 => ?unslotted, fun hdev hfree => ?granted, fun hdev t ht hother hheld => ?refused⟩
  case unslotted => rw [h0, State.bookedNotify_unslotted, State.notify_eq, hkind]
  case granted =>
    have hown : slotOfDev dev < 31 := by
      have := dev.isLt
      unfold slotOfDev
      omega
    have hbook := State.book_marks hdev ((requestBusy_iff hcount (slotOfDev dev) loco).2 hfree)
    refine ⟨_, State.markBusy_slotSet hslots hown loco, ?_⟩
    rw [State.bookedNotify_of_granted hbook, State.notify_eq, hkind]
    rfl
  case refused =>
    have hbusy : requestBusy s.slots (slotOfDev dev) loco = false :=
      Bool.eq_false_iff.2 fun h => (requestBusy_iff hcount _ _).1 h t ht hother hheld
    rw [State.bookedNotify_of_refused (State.book_notices hdev hbusy (State.holder_eq hslots ht hheld))]
    exact State.raise_reply_replies htx .busy (frameBusy_length ..)

/-! ### Frames read by the rows of the default tables (30_encoding.md R117 to R121) -/

theorem dmFrame_of_row {dev : DevAddr} {hdr : Byte} {data : List Byte} {i : Instr}
    (hrow : decodeDm defaultHdrMap dev hdr data = i) : DmFrame dev hdr data i :=
  (decodeFrame_messageOf_poll dev hdr data).trans (congrArg _ hrow)

theorem mdFrame_of_row {dev : DevAddr} {hdr : Byte} {data : List Byte} {i : Instr}
    (hrow : decodeMd defaultHdrMap dev hdr data = i) : MdFrame dev hdr data i :=
  (decodeFrame_messageOf_msg dev hdr data).trans (congrArg _ hrow)

/-- A device's Message written out with its checksum. -/
theorem DmFrame.written {dev : DevAddr} {hdr : Byte} {data frame : List Byte} {i : Instr}
    (h : DmFrame dev hdr data i) (hframe : encodeFrame hdr data = frame) :
    decodeFrame (mkCb .poll dev :: frame) = .ok i :=
  hframe ▸ h

/-- A master's Message written out with its checksum. -/
theorem MdFrame.written {dev : DevAddr} {hdr : Byte} {data frame : List Byte} {i : Instr}
    (h : MdFrame dev hdr data i) (hframe : encodeFrame hdr data = frame) :
    decodeFrame (mkCb .msg dev :: frame) = .ok i :=
  hframe ▸ h

end Sys2Proof.Machine
end

section
/-! PROOFS. The Dispatcher: Messages from polled devices (43_dispatcher.md R236 to R259). -/

namespace Sys2Proof.Machine

/-! ### Power requests (43_dispatcher.md R238 to R241) -/

theorem grantsPower_of_powerRequested {i : Instr} {p : Power} (h : ∀ s, exec i s = .next (s.powerRequested p)) :
    GrantsPower i p := by
  intro s htx
  have hcb : (0xC0 : Byte) = mkCb .msg 0 := by decide
  rw [h, hcb, State.powerRequested, State.powerNotify_eq]
  exact State.reply_replies (s := { s with power := p }.told (s.heard 0 (.power p))) htx
    (powerBroadcast_length s.params.hdrMap p) id

/-- Settles O25: the four rows, each with the power state it names. -/
theorem devicePowerRequests : Obligations.DevicePowerRequests := fun dev =>
  ⟨(dmFrame_of_row (hdr := 0x21) (data := [0x81]) rfl).written (by decide),
    grantsPower_of_powerRequested fun _ => rfl,
    (dmFrame_of_row (hdr := 0x21) (data := [0x80]) rfl).written (by decide),
    grantsPower_of_powerRequested fun _ => rfl,
    (dmFrame_of_row (hdr := 0x21) (data := [0x10]) rfl).written (by decide),
    grantsPower_of_powerRequested fun _ => rfl,
    (dmFrame_of_row (hdr := 0x80) (data := []) rfl).written (by decide),
    grantsPower_of_powerRequested fun _ => rfl,
    by decide⟩

/-! ### Frames that only notify, in both directions (43_dispatcher.md R242, R244 to R247, R257, R258, R266, R267) -/

/-- Settles O27: each row, read from its operand bytes, notifies them. -/
theorem framesThatOnlyNotify : Obligations.FramesThatOnlyNotify := fun dev d0 d1 _ =>
  ⟨dmFrame_of_row rfl, announces_of_notify rfl fun _ => rfl,
    dmFrame_of_row (decodeDm_turnoutStatusReq dev d0 d1), announces_of_notify rfl fun _ => rfl,
    dmFrame_of_row (decodeDm_turnoutCmd dev d0 d1), announces_of_notify rfl fun _ => rfl,
    dmFrame_of_row rfl, announces_of_notify rfl fun _ => rfl,
    dmFrame_of_row rfl, announces_of_notify rfl fun _ => rfl,
    mdFrame_of_row rfl, announces_of_notify rfl fun _ => rfl,
    mdFrame_of_row (decodeMd_turnoutCmdM dev d0 d1), announces_of_notify rfl fun _ => rfl⟩

/-- Settles O28: the tag of the fourth data byte chooses the row. -/
theorem pomFramesNotify : Obligations.PomFramesNotify := fun dev ah al _ cvl val =>
  ⟨fun htag => dmFrame_of_row (decodeDm_pomByte htag dev ah al cvl val), announces_of_notify rfl fun _ => rfl,
    fun htag => dmFrame_of_row (decodeDm_pomBit htag dev ah al cvl val), announces_of_notify rfl fun _ => rfl⟩

/-! ### The CV cache, in both directions (43_dispatcher.md R243, R268) -/

/-- Settles O29: both rows write the cache, the device's alone notifies. -/
theorem cvFramesCache : Obligations.CvFramesCache := fun _ cv v s =>
  ⟨dmFrame_of_row rfl, congrArg _ (State.notify_eq (s.cacheCv cv v) (.cvWrite cv v)), mdFrame_of_row rfl, rfl⟩

/-! ### Drive and function frames (43_dispatcher.md R248 to R256) -/

/-- Settles O30: each of the four rows books and notifies its speed-step variant. -/
theorem deviceDriveFrames : Obligations.DeviceDriveFrames := fun _ _ _ _ =>
  ⟨dmFrame_of_row rfl, books_of_bookedNotify rfl fun _ => rfl,
    dmFrame_of_row rfl, books_of_bookedNotify rfl fun _ => rfl,
    dmFrame_of_row rfl, books_of_bookedNotify rfl fun _ => rfl,
    dmFrame_of_row rfl, books_of_bookedNotify rfl fun _ => rfl,
    fun _ _ => rfl⟩

/-- Settles O31: each of the five rows books and notifies its group at the group's width. -/
theorem deviceFunctionFrames : Obligations.DeviceFunctionFrames := fun _ _ _ _ =>
  ⟨dmFrame_of_row rfl, books_of_bookedNotify rfl fun _ => rfl,
    dmFrame_of_row rfl, books_of_bookedNotify rfl fun _ => rfl,
    dmFrame_of_row rfl, books_of_bookedNotify rfl fun _ => rfl,
    dmFrame_of_row rfl, books_of_bookedNotify rfl fun _ => rfl,
    dmFrame_of_row rfl, books_of_bookedNotify rfl fun _ => rfl,
    fun _ _ => rfl⟩

/-! ### Frames of no kind, and frames without effect (43_dispatcher.md R236, R237, R259, R271) -/

/-- Settles O32: no row matches, and the reply to the sender follows the condition. -/
theorem unknownDeviceFrame : Obligations.UnknownDeviceFrame := fun dev _ _ s htx =>
  ⟨fun hkind => dmFrame_of_row (decodeDm_unknown hkind dev), by decide, by decide, by decide, by decide, by decide,
    by decide, by decide, State.raise_reply_replies htx .unknownHdr (frameNotUnderstood_length s.params.hdrMap)⟩

/-- Settles O26: the three rows answer the state they are given. -/
theorem framesWithoutEffect : Obligations.FramesWithoutEffect := fun dev _ _ _ =>
  ⟨(dmFrame_of_row (hdr := 0x20) (data := []) rfl).written (by decide), rfl,
    (dmFrame_of_row (hdr := 0x21) (data := [0x21]) rfl).written (by decide), rfl,
    fun hkind => mdFrame_of_row (decodeMd_ignored hkind dev), by decide, by decide, by decide, by decide, by decide,
    rfl⟩

end Sys2Proof.Machine
end

section
/-! PROOFS. The Dispatcher: Messages from a master (43_dispatcher.md R260 to R272). -/

namespace Sys2Proof.Machine

/-! ### Power broadcasts (43_dispatcher.md R261 to R264) -/

/-- Settles O33: the four rows, each with the power state it names. -/
theorem masterPowerFrames : Obligations.MasterPowerFrames := fun _ s =>
  ⟨(mdFrame_of_row (hdr := 0x61) (data := [0x01]) rfl).written (by decide), congrArg _ (s.powerNotify_eq .normal),
    (mdFrame_of_row (hdr := 0x61) (data := [0x00]) rfl).written (by decide), congrArg _ (s.powerNotify_eq .off),
    (mdFrame_of_row (hdr := 0x61) (data := [0x02]) rfl).written (by decide), congrArg _ (s.powerNotify_eq .service),
    (mdFrame_of_row (hdr := 0x81) (data := [0x00]) rfl).written (by decide), congrArg _ (s.powerNotify_eq .estop)⟩

/-! ### Answers to pending requests (43_dispatcher.md R272) -/

section
variable {s : State} {loco : LocoAddr}

theorem State.clearInfo_answered (hpend : s.pendInfo = true) (haddr : s.pendInfoAddr = loco) :
    s.clearInfo loco = { s with pendInfo := false } :=
  if_pos ⟨hpend, haddr⟩

theorem State.clearInfo_unasked (h : s.pendInfo = false ∨ s.pendInfoAddr ≠ loco) : s.clearInfo loco = s := by
  refine if_neg ?_
  rintro ⟨hpend, haddr⟩
  exact h.elim (fun hno => Bool.false_ne_true (hno.symm.trans hpend)) (· haddr)

theorem State.clearFunc_answered (hpend : s.pendFunc = true) (haddr : s.pendFuncAddr = loco) :
    s.clearFunc loco = { s with pendFunc := false } :=
  if_pos ⟨hpend, haddr⟩

theorem State.clearFunc_unasked (h : s.pendFunc = false ∨ s.pendFuncAddr ≠ loco) : s.clearFunc loco = s := by
  refine if_neg ?_
  rintro ⟨hpend, haddr⟩
  exact h.elim (fun hno => Bool.false_ne_true (hno.symm.trans hpend)) (· haddr)

end

/-- A row that notifies and then answers the info request. -/
theorem answersInfo_of_clearInfo {i : Instr} {loco : LocoAddr} {k : Nat} {n : Notification} (hkind : n.kind = k)
    (h : ∀ s, exec i s = .next ((s.notify n).clearInfo loco)) : AnswersInfo i loco k n := by
  intro s
  rw [h, State.notify_eq, hkind]
  exact ⟨fun hpend haddr => congrArg _ (State.clearInfo_answered (s := s.told _) hpend haddr),
    fun hno => congrArg _ (State.clearInfo_unasked (s := s.told _) hno)⟩

/-- A row that notifies and then answers the function request. -/
theorem answersFunc_of_clearFunc {i : Instr} {loco : LocoAddr} {k : Nat} {n : Notification} (hkind : n.kind = k)
    (h : ∀ s, exec i s = .next ((s.notify n).clearFunc loco)) : AnswersFunc i loco k n := by
  intro s
  rw [h, State.notify_eq, hkind]
  exact ⟨fun hpend haddr => congrArg _ (State.clearFunc_answered (s := s.told _) hpend haddr),
    fun hno => congrArg _ (State.clearFunc_unasked (s := s.told _) hno)⟩

/-- Settles O34: each of the four rows notifies its speed-step variant and answers. -/
theorem masterDriveFrames : Obligations.MasterDriveFrames := fun _ _ _ _ =>
  ⟨mdFrame_of_row rfl, answersInfo_of_clearInfo rfl fun _ => rfl,
    mdFrame_of_row rfl, answersInfo_of_clearInfo rfl fun _ => rfl,
    mdFrame_of_row rfl, answersInfo_of_clearInfo rfl fun _ => rfl,
    mdFrame_of_row rfl, answersInfo_of_clearInfo rfl fun _ => rfl⟩

/-- Settles O35: each of the five rows notifies its group at the group's width and answers. -/
theorem masterFunctionFrames : Obligations.MasterFunctionFrames := fun _ _ _ _ =>
  ⟨mdFrame_of_row rfl, answersFunc_of_clearFunc rfl fun _ => rfl,
    mdFrame_of_row rfl, answersFunc_of_clearFunc rfl fun _ => rfl,
    mdFrame_of_row rfl, answersFunc_of_clearFunc rfl fun _ => rfl,
    mdFrame_of_row rfl, answersFunc_of_clearFunc rfl fun _ => rfl,
    mdFrame_of_row rfl, answersFunc_of_clearFunc rfl fun _ => rfl⟩

end Sys2Proof.Machine
end

section
/-! PROOFS. The Dispatcher as a whole: it runs the row a Message decodes to, and what it may write and read
(43_dispatcher.md R230, R274). -/

namespace Sys2Proof.Machine

/-! ### The row a Message decodes to (43_dispatcher.md R230) -/

/-- Every kind of the device-to-master table is a row that the Dispatcher runs as `exec` does. -/
theorem runFrame_decodeDm (t : HdrMap) (dev : DevAddr) (hdr : Byte) (data : List Byte) (s : State) :
    runFrame (decodeDm t dev hdr data) s = exec (decodeDm t dev hdr data) s := by
  unfold decodeDm
  generalize dmKindBy t hdr data = kind
  cases kind <;> rfl

/-- Every kind of the master-to-device table is a row that the Dispatcher runs as `exec` does. -/
theorem runFrame_decodeMd (t : HdrMap) (dev : DevAddr) (hdr : Byte) (data : List Byte) (s : State) :
    runFrame (decodeMd t dev hdr data) s = exec (decodeMd t dev hdr data) s := by
  unfold decodeMd
  generalize mdKindBy t hdr data = kind
  cases kind <;> rfl

/-- A Message decodes by the table of the direction that its call byte names. -/
theorem decodeFrameBy_ok {t : HdrMap} {m : Message} {i : Instr} (h : decodeFrameBy t m = .ok i) :
    (∃ dev hdr data, i = decodeDm t dev hdr data) ∨ ∃ dev hdr data, i = decodeMd t dev hdr data := by
  simp only [decodeFrameBy] at h
  split at h
  · exact .inl ⟨_, _, _, (Except.ok.inj h).symm⟩
  · exact .inr ⟨_, _, _, (Except.ok.inj h).symm⟩
  · cases h
  · cases h

theorem dispatch_decoded {m : Message} {s : State} {i : Instr} (h : decodeFrameBy s.params.hdrMap m = .ok i) :
    dispatch m s = runFrame i s := by
  rw [dispatch, h]

theorem dispatch_undirected {m : Message} {s : State} {e : DecodeError}
    (h : decodeFrameBy s.params.hdrMap m = .error e) : dispatch m s = .next s := by
  rw [dispatch, h]

/-- Settles O36: a decoded Message is a row of one of the two tables. -/
theorem dispatchRunsDecodedFrame : Obligations.DispatchRunsDecodedFrame := by
  refine fun m s => ⟨fun i hdec => ?decoded, fun e hdec => dispatch_undirected hdec, fun htables => ?default⟩
  case decoded =>
    rw [dispatch_decoded hdec]
    rcases decodeFrameBy_ok hdec with ⟨dev, hdr, data, rfl⟩ | ⟨dev, hdr, data, rfl⟩
    · exact runFrame_decodeDm ..
    · exact runFrame_decodeMd ..
  case default =>
    rw [htables]
    rfl

/-! ### What the Dispatcher may write, and that it does not look at the time (43_dispatcher.md R274) -/

/-- The state `t` with all that the Dispatcher may write put back to what it is in `s`. -/
def State.withDispatcherPart (t s : State) : State :=
  { t with txRing := s.txRing, slots := s.slots, pendInfo := s.pendInfo, pendFunc := s.pendFunc, power := s.power,
           lastCvValid := s.lastCvValid, lastCvIdx := s.lastCvIdx, lastCvVal := s.lastCvVal, out := s.out }

/-- On `s` the update `f` writes only what the Dispatcher may write, and it does the same at any time. -/
structure State.Dispatches (s : State) (f : State → State) : Prop where
  frame : (f s).withDispatcherPart s = s
  timeless : ∀ n, f { s with now := n } = { f s with now := n }

theorem State.Dispatches.trans {s : State} {f g : State → State} (hf : s.Dispatches f) (hg : (f s).Dispatches g) :
    s.Dispatches fun u => g (f u) where
  frame := calc
    (g (f s)).withDispatcherPart s = ((g (f s)).withDispatcherPart (f s)).withDispatcherPart s := rfl
    _ = s := by rw [hg.frame, hf.frame]
  timeless n := by rw [hf.timeless, hg.timeless]

/-- Updates that agree on `s` at any time. -/
theorem State.Dispatches.congr {s : State} {f g : State → State} (hg : s.Dispatches g)
    (h : ∀ n, f { s with now := n } = g { s with now := n }) : s.Dispatches f where
  frame := by
    rw [show f s = g s from h s.now]
    exact hg.frame
  timeless n := by rw [h n, hg.timeless n, show f s = g s from h s.now]

theorem State.dispatches_id (s : State) : s.Dispatches fun u => u := ⟨rfl, fun _ => rfl⟩

theorem State.raise_dispatches (s : State) (e : ErrCond) : s.Dispatches (·.raise e) := ⟨rfl, fun _ => rfl⟩

theorem State.notify_dispatches (s : State) (n : Notification) : s.Dispatches (·.notify n) := by
  simp only [State.notify_eq]
  exact ⟨rfl, fun _ => rfl⟩

theorem State.reply_dispatches (s : State) (cb : Byte) (frame : List Byte) : s.Dispatches (·.reply cb frame) := by
  cases h : s.txRing.enqueue s.params.cap s.params.syncLag (cb :: frame) with
  | none => exact (s.raise_dispatches .txFull).congr fun k => State.reply_lost (s := { s with now := k }) h
  | some r =>
    have hqueue : s.Dispatches fun u => { u with txRing := r } := ⟨rfl, fun _ => rfl⟩
    exact hqueue.congr fun k => State.reply_queued (s := { s with now := k }) h

theorem State.power_dispatches (s : State) (p : Power) : s.Dispatches fun u => { u with power := p } :=
  ⟨rfl, fun _ => rfl⟩

theorem State.cacheCv_dispatches (s : State) (cv val : Byte) : s.Dispatches (·.cacheCv cv val) := ⟨rfl, fun _ => rfl⟩

theorem State.slots_dispatches (s : State) (slots : List (Option LocoAddr)) :
    s.Dispatches fun u => { u with slots := slots } :=
  ⟨rfl, fun _ => rfl⟩

theorem State.clearInfo_dispatches (s : State) (loco : LocoAddr) : s.Dispatches (·.clearInfo loco) := by
  by_cases h : s.pendInfo = true ∧ s.pendInfoAddr = loco
  · have hclear : s.Dispatches fun u => { u with pendInfo := false } := ⟨rfl, fun _ => rfl⟩
    exact hclear.congr fun _ => if_pos h
  · exact s.dispatches_id.congr fun _ => if_neg h

theorem State.clearFunc_dispatches (s : State) (loco : LocoAddr) : s.Dispatches (·.clearFunc loco) := by
  by_cases h : s.pendFunc = true ∧ s.pendFuncAddr = loco
  · have hclear : s.Dispatches fun u => { u with pendFunc := false } := ⟨rfl, fun _ => rfl⟩
    exact hclear.congr fun _ => if_pos h
  · exact s.dispatches_id.congr fun _ => if_neg h

theorem State.powerNotify_dispatches (s : State) (p : Power) : s.Dispatches (·.powerNotify p) :=
  (s.power_dispatches p).trans (State.notify_dispatches _ _)

/-- The frame broadcast depends on the parameters alone, which no time changes. -/
theorem State.powerRequested_dispatches (s : State) (p : Power) : s.Dispatches (·.powerRequested p) :=
  ((s.powerNotify_dispatches p).trans
    (State.reply_dispatches _ (mkCb .msg 0) (powerBroadcast s.params.hdrMap p))).congr fun _ => rfl

theorem State.unknown_dispatches (s : State) (dev : DevAddr) :
    s.Dispatches fun u => (u.raise .unknownHdr).reply (mkCb .msg dev) (frameNotUnderstood u.params.hdrMap) :=
  ((s.raise_dispatches .unknownHdr).trans
    (State.reply_dispatches _ (mkCb .msg dev) (frameNotUnderstood s.params.hdrMap))).congr fun _ => rfl

/-- Which branch the bookkeeping takes depends on the Slot Table alone. -/
theorem State.bookedNotify_dispatches (s : State) (dev : DevAddr) (loco : LocoAddr) (n : Notification) :
    s.Dispatches (·.bookedNotify dev loco n) := by
  by_cases h0 : dev = 0
  · subst h0
    exact s.notify_dispatches n
  · cases hfree : requestBusy s.slots (slotOfDev dev) loco with
    | true =>
      have hgrant := (s.slots_dispatches (markBusy s.slots (slotOfDev dev) loco)).trans (State.notify_dispatches _ n)
      exact hgrant.congr fun k =>
        State.bookedNotify_of_granted (State.book_marks (s := { s with now := k }) h0 hfree) n
    | false =>
      obtain ⟨t, hholder⟩ := holder_of_refused hfree
      have hrefuse := (s.raise_dispatches .busy).trans
        (State.reply_dispatches _ (mkCb .msg dev) (frameBusy s.params.hdrMap loco t))
      exact hrefuse.congr fun k =>
        State.bookedNotify_of_refused (State.book_notices (s := { s with now := k }) h0 hfree hholder) n

/-- The effect of a Message, row by row. -/
theorem runFrame_dispatches (i : Instr) (s : State) :
    ∃ f, (∀ u, runFrame i u = .next (f u)) ∧ s.Dispatches f := by
  cases i with
  | pwrOnReq | pwrOffReq | pwrServiceReq | estopReq => exact ⟨_, fun _ => rfl, s.powerRequested_dispatches _⟩
  | bcPwrOn | bcPwrOff | bcService | bcEstop => exact ⟨_, fun _ => rfl, s.powerNotify_dispatches _⟩
  | cvReadDirect | turnoutStatusReq | turnoutCmd | locoInfoReq | locoFuncReq | pomByte | pomBit | turnoutFb
  | turnoutCmdM => exact ⟨_, fun _ => rfl, s.notify_dispatches _⟩
  | locoDrive14 | locoDrive27 | locoDrive28 | locoDrive128 | locoFuncG1 | locoFuncG2 | locoFuncG3 | locoFuncG4
  | locoFuncG5 => exact ⟨_, fun _ => rfl, s.bookedNotify_dispatches _ _ _⟩
  | locoDrive14M | locoDrive27M | locoDrive28M | locoDrive128M =>
    exact ⟨_, fun _ => rfl, (s.notify_dispatches _).trans (State.clearInfo_dispatches ..)⟩
  | locoFuncG1M | locoFuncG2M | locoFuncG3M | locoFuncG4M | locoFuncG5M =>
    exact ⟨_, fun _ => rfl, (s.notify_dispatches _).trans (State.clearFunc_dispatches ..)⟩
  | cvWriteDirect => exact ⟨_, fun _ => rfl, (s.cacheCv_dispatches _ _).trans (State.notify_dispatches ..)⟩
  | cvResult => exact ⟨_, fun _ => rfl, s.cacheCv_dispatches _ _⟩
  | dmUnknown => exact ⟨_, fun _ => rfl, s.unknown_dispatches _⟩
  | _ => exact ⟨_, fun _ => rfl, s.dispatches_id⟩

/-- The tables are parameters, so the row is the same at any time. -/
theorem dispatch_dispatches (m : Message) (s : State) :
    ∃ f, (∀ n, dispatch m { s with now := n } = .next (f { s with now := n })) ∧ s.Dispatches f := by
  cases hdec : decodeFrameBy s.params.hdrMap m with
  | ok i =>
    obtain ⟨f, hrun, hf⟩ := runFrame_dispatches i s
    exact ⟨f, fun n => (dispatch_decoded (s := { s with now := n }) hdec).trans (hrun _), hf⟩
  | error e => exact ⟨_, fun n => dispatch_undirected (s := { s with now := n }) hdec, s.dispatches_id⟩

/-- Settles O37: the update that the Message stands for writes only the Dispatcher's part, at any time. -/
theorem dispatcherFrame : Obligations.DispatcherFrame := by
  intro m s
  obtain ⟨f, hrun, hframe, htimeless⟩ := dispatch_dispatches m s
  exact ⟨f s, hrun s.now, hframe, fun n => (hrun n).trans (congrArg _ (htimeless n))⟩

end Sys2Proof.Machine
end

section
/-! PROOFS. The Slot Table: what its two queries answer and what its two writers write (44_slot_table.md R291 to R294,
R300). -/

namespace Sys2Proof.Machine

/-! ### The four operations -/

theorem exec_requestBusy (own : Fin 31) (loco : LocoAddr) (s : State) :
    exec (.requestBusy own loco) s = .next (s.answer (.bool (requestBusy s.slots own.val loco))) := rfl

theorem exec_holder (loco : LocoAddr) (s : State) :
    exec (.holder loco) s = .next (s.answer (.slot (holder s.slots loco))) := rfl

theorem exec_markBusy (own : Fin 31) (loco : LocoAddr) (s : State) :
    exec (.markBusy own loco) s = .next { s with slots := markBusy s.slots own.val loco } := rfl

theorem exec_release (own : Fin 31) (s : State) :
    exec (.release own) s = .next { s with slots := release s.slots own.val } := rfl

/-! ### The queries (44_slot_table.md R291, R294) -/

/-- A claim refuses the address to every slot but its own. -/
theorem requestBusy_of_held {slots : List (Option LocoAddr)} (hcount : slots.length = 31) {own t : Nat}
    {loco : LocoAddr} (ht : t < 31) (hne : t ≠ own) (hheld : slots.getD t none = some loco) : requestBusy slots own loco = false :=
  Bool.eq_false_iff.2 fun hfree => (requestBusy_iff hcount own loco).1 hfree t ht hne hheld

/-- Settles O15: the answer is the query's value on the Slot Table, where no address is held twice. -/
theorem slotQueries : Obligations.SlotQueries := by
  intro own loco s hslots
  obtain ⟨hcount, -⟩ := id hslots
  rw [exec_requestBusy, exec_holder]
  refine ⟨fun hfree => ?free, fun t ht hheld => ⟨fun hne => ?refused, ?held⟩, fun hnone => ?unheld⟩
  case free => rw [(requestBusy_iff hcount ..).2 hfree, State.answer]
  case refused => rw [requestBusy_of_held hcount ht hne hheld, State.answer]
  case held => rw [State.holder_eq hslots ht hheld, State.answer]
  case unheld => rw [(holder_none hcount).2 hnone, State.answer]

/-! ### The writers (44_slot_table.md R292, R293, R300) -/

theorem markBusy_held {slots : List (Option LocoAddr)} {own : Nat} {loco : LocoAddr}
    (hheld : slots.getD own none = some loco) : markBusy slots own loco = slots := if_pos hheld

theorem release_length (slots : List (Option LocoAddr)) (own : Nat) : (release slots own).length = slots.length :=
  List.length_set ..

theorem release_empty {slots : List (Option LocoAddr)} {own : Nat} (hown : own < slots.length)
    (hempty : slots.getD own none = none) : release slots own = slots := by
  have hentry : slots[own] = none := (List.getD_eq_getElem _ _ hown).symm.trans hempty
  calc release slots own = slots.set own slots[own] := by rw [hentry, release]
    _ = slots := List.set_getElem_self hown

/-- An address that was free for a slot is, once the slot has claimed and released it, held by no slot. -/
theorem release_markBusy_unheld {slots : List (Option LocoAddr)} (hcount : slots.length = 31) {own : Nat}
    {loco : LocoAddr} (hfree : requestBusy slots own loco = true) {t : Nat} (ht : t < 31) :
    (release (markBusy slots own loco) own).getD t none ≠ some loco := by
  by_cases hown : t = own
  · rw [hown, release_own]
    exact (Option.some_ne_none loco).symm
  · rw [release_other _ hown, markBusy_other _ hown]
    exact (requestBusy_iff hcount own loco).1 hfree t ht hown

/-- Settles O16: each writer sets its own entry, which alone decides what the other slots are answered. -/
theorem slotWrites : Obligations.SlotWrites := by
  intro own other loco s hcount
  have hown : own.val < s.slots.length := hcount.symm ▸ own.isLt
  have hmarked : (markBusy s.slots own.val loco).length = 31 := (markBusy_length ..).trans hcount
  rw [exec_markBusy, exec_release]
  refine ⟨⟨_, ⟨hmarked, markBusy_own hown loco, fun t _ hne => markBusy_other _ hne loco⟩, rfl⟩,
    fun hheld => ?again,
    ⟨_, ⟨(release_length ..).trans hcount, release_own .., fun t _ hne => release_other _ hne⟩, rfl⟩,
    fun hempty => ?empty, fun hother hfree => ⟨?refused, ?freed⟩⟩
  case again => rw [markBusy_held hheld]
  case empty => rw [release_empty hown hempty]
  case refused =>
    exact requestBusy_of_held hmarked own.isLt (Fin.val_ne_of_ne hother.symm) (markBusy_own hown loco)
  case freed =>
    have hreleased := (release_length (markBusy s.slots own.val loco) own.val).trans hmarked
    exact (requestBusy_iff hreleased ..).2 fun t ht _ => release_markBusy_unheld hcount hfree ht

end Sys2Proof.Machine
end

section
/-! PROOFS. Host commands, the shared rules: arguments and their ranges, the check of `SETUP_DONE`, the push of a
Message, and the claim that goes with it (45_host_commands.md R306, R307, R313). -/

namespace Sys2Proof.Machine

/-! ### Arguments and their ranges (45_host_commands.md R306, 30_encoding.md R127) -/

/-- An argument that has the value of a narrower word is that word. -/
theorem setWidth_of_toNat_eq {m n : Nat} {a : BitVec m} {b : BitVec n} (h : a.toNat = b.toNat) : a.setWidth n = b := by
  rw [← BitVec.ofNat_toNat, h, BitVec.ofNat_toNat, BitVec.setWidth_eq]

theorem locoArg_eq_none {arg0 : BitVec 16} (h : 16383 < arg0.toNat) : locoArg arg0 = none := if_neg (by omega)

theorem locoArg_eq_some {arg0 : BitVec 16} {loco : LocoAddr} (h : arg0.toNat = loco.toNat) :
    locoArg arg0 = some loco := by
  rw [locoArg, if_pos (h ▸ loco.isLt), setWidth_of_toNat_eq h]

theorem turnoutArg_eq_none {arg0 : BitVec 16} (h : 1023 < arg0.toNat) : turnoutArg arg0 = none := if_neg (by omega)

theorem turnoutArg_eq_some {arg0 : BitVec 16} {t : BitVec 10} (h : arg0.toNat = t.toNat) :
    turnoutArg arg0 = some t := by
  rw [turnoutArg, if_pos (h ▸ t.isLt), setWidth_of_toNat_eq h]

theorem cvArg_eq_none {arg0 : BitVec 16} (h : 255 < arg0.toNat) : cvArg arg0 = none := if_neg (by omega)

theorem cvArg_eq_some {arg0 : BitVec 16} {cv : Byte} (h : arg0.toNat = cv.toNat) : cvArg arg0 = some cv := by
  rw [cvArg, if_pos (h ▸ cv.isLt), setWidth_of_toNat_eq h]

/-- A word beyond a bound is no word within it. -/
theorem ne_of_beyond {w n : Nat} {a b : BitVec w} (ha : n < a.toNat) (hb : b.toNat ≤ n) : a ≠ b :=
  fun heq => Nat.not_lt.2 hb (heq ▸ ha)

theorem powerOfCode_eq_none {arg0 : BitVec 16} (h : 4 < arg0.toNat) : powerOfCode arg0 = none := by
  unfold powerOfCode
  repeat rw [if_neg (ne_of_beyond h (by decide))]

theorem stepsOfSelector_eq_none {sel : BitVec 18} (h : 4 < sel.toNat) (dflt : Steps) :
    stepsOfSelector dflt sel = none := by
  unfold stepsOfSelector
  repeat rw [if_neg (ne_of_beyond h (by decide))]

theorem stepsOfSelector_stepsNo {sel : BitVec 18} {k : Steps} (h : sel.toNat = stepsNo k) (dflt : Steps) :
    stepsOfSelector dflt sel = some k := by
  have hsel : sel = BitVec.ofNat 18 (stepsNo k) := by rw [← h, BitVec.ofNat_toNat, BitVec.setWidth_eq]
  rw [hsel]
  cases k <;> rfl

theorem stepsOfSelector_default {sel : BitVec 18} (h : sel.toNat = 4) (dflt : Steps) :
    stepsOfSelector dflt sel = some dflt := by
  rw [show sel = 4 from BitVec.eq_of_toNat_eq h]
  rfl

theorem groupOfSelector_eq_none {sel : BitVec 18} (h : sel.toNat = 0 ∨ 5 < sel.toNat) : groupOfSelector sel = none := by
  rcases h with h | h
  · rw [show sel = 0 from BitVec.eq_of_toNat_eq h]
    rfl
  · unfold groupOfSelector
    repeat rw [if_neg (ne_of_beyond h (by decide))]

theorem stepsOfCode_stepsNo {arg1 : Byte} {k : Steps} (h : arg1.toNat % 4 = stepsNo k) :
    stepsOfCode (arg1.extractLsb' 0 2) = k := by
  have hcode : arg1.extractLsb' 0 2 = BitVec.ofNat 2 (stepsNo k) := by
    rw [← h]
    apply BitVec.eq_of_toNat_eq
    simp
  rw [hcode]
  cases k <;> rfl

/-! ### The check of `SETUP_DONE` (45_host_commands.md R306) -/

/-- A row behind the check does, once the machine is set up, what stands behind it. -/
theorem exec_of_gated {i : Instr} {s k : State} (hset : s.setupDone = true) (h : exec i s = .next (s.gated k)) :
    exec i s = .next k := by
  rw [h, State.gated_setup hset]

/-- Every command but SETUP, POLL and the reserved codes is one row behind the check. -/
theorem exec_isGated {i : Instr} (hi : isPlainHostRow i = true) (hres : ∀ op, i ≠ .hostReserved op) (s : State) :
    ∃ k, exec i s = .next (s.gated k) := by
  cases i with
  | hostReserved op => exact absurd rfl (hres op)
  | setPower | getPower | getRole | locoClaim | locoBusyNote | pushDrive | pushFunc | getLocoInfo | getLocoFunc
  | pushTurnoutStatus | pushTurnoutCmd | setCvReadValue | setCvNack | setCvNackSc | pushFeedback | releaseSlot
  | pendTimeout => exact ⟨_, rfl⟩
  | _ => cases hi

/-! ### The push of a Message (45_host_commands.md R306, R307) -/

theorem State.hostCb_master {s : State} (h : s.role = .master) : s.hostCb = 0xC0 :=
  (if_pos h).trans (by decide)

theorem State.hostCb_polled {s : State} (h : s.role ≠ .master) : s.hostCb = mkCb .poll s.myAddr := if_neg h

/-- A frame of a Message's length is queued and the writes `k` are done, or the command is rejected. -/
theorem State.pushFrame_pushes {s : State} (htx : s.TxOk) {frame : List Byte} (hlen : frame.length ≤ 9) (v : Byte)
    (k : State → State) :
    s.Pushes (s.hostCb :: frame) (fun r => (k { s with txRing := r }).answered .ok v)
      (.next (s.pushFrame frame v k)) := by
  obtain ⟨-, hok⟩ := htx
  rcases s.pushFrame_cases frame v k with ⟨hfull, heq⟩ | ⟨hroom, r, henq, heq⟩
  · exact ⟨fun h => absurd (h.symm.trans hfull) (by decide), fun _ => congrArg _ heq⟩
  · refine ⟨fun _ => ?_, fun h => absurd (h.symm.trans hroom) (by decide)⟩
    obtain ⟨r', henq', hgain, -⟩ := Ring.enqueue_gains hok (m := s.hostCb :: frame) (Nat.succ_le_succ hlen) hroom
    obtain rfl : r' = r := Option.some.inj (henq'.symm.trans henq)
    exact ⟨r', hgain, congrArg _ heq⟩

theorem pushes_of_pushFrame {i : Instr} {s : State} {frame : List Byte} {v : Byte} {k : State → State}
    (h : exec i s = .next (s.pushFrame frame v k)) (htx : s.TxOk) (hlen : frame.length ≤ 9) :
    s.Pushes (s.hostCb :: frame) (fun r => (k { s with txRing := r }).answered .ok v) (exec i s) :=
  h ▸ State.pushFrame_pushes htx hlen v k

/-- A row that builds its frame from a template and pushes it, behind the check. -/
theorem pushes_of_template {i : Instr} {s : State} (hset : s.setupDone = true) (htx : s.TxOk) (f : FrameTemplate)
    (ops : List Byte) (v : Byte) (k : State → State)
    (h : exec i s = .next (s.gated (s.pushFrame (f.build ops) v k))) :
    s.Pushes (s.hostCb :: f.build ops) (fun r => (k { s with txRing := r }).answered .ok v) (exec i s) :=
  pushes_of_pushFrame (exec_of_gated hset h) htx (f.build_length ops).2

/-! ### The claim of the local slot (45_host_commands.md R312, R313; 44_slot_table.md R299) -/

theorem State.localSlot_lt (s : State) : s.localSlot < 31 := by
  have := s.myAddr.isLt
  unfold State.localSlot slotOfDev
  omega

section
variable {s : State} {loco : LocoAddr} {frame : List Byte}

theorem State.pushClaimed_claims (hrole : s.role = .master) (hfree : requestBusy s.slots s.localSlot loco = true) :
    s.pushClaimed loco frame = s.pushFrame frame 0 fun t => { t with slots := markBusy t.slots t.localSlot loco } := by
  rw [State.pushClaimed, if_pos hrole, if_pos hfree]

theorem State.pushClaimed_refused (hrole : s.role = .master) (hbusy : requestBusy s.slots s.localSlot loco = false) :
    s.pushClaimed loco frame = s.rejected .eBusy (slotValue (holder s.slots loco)) .busy := by
  rw [State.pushClaimed, if_pos hrole, if_neg (Bool.eq_false_iff.1 hbusy), State.failCmd_eBusy]

theorem State.pushClaimed_polled (hrole : s.role ≠ .master) : s.pushClaimed loco frame = s.pushFrame frame 0 id :=
  if_neg hrole

end

/-- A row that claims and pushes meets the rule of R313 and R315. -/
theorem claimsAndPushes_of_pushClaimed {i : Instr} {s : State} {loco : LocoAddr} {frame : List Byte}
    (htx : s.TxOk) (hslots : s.SlotsOk) (hlen : frame.length ≤ 9) (h : exec i s = .next (s.pushClaimed loco frame)) :
    s.ClaimsAndPushes i loco frame := by
  obtain ⟨hcount, -⟩ := id hslots
  rw [State.ClaimsAndPushes, h]
  refine ⟨fun hrole hfree => ?claimed, fun hrole t ht hother hheld => ?refused, fun hrole => ?polled⟩
  case claimed =>
    refine ⟨_, State.markBusy_slotSet hslots s.localSlot_lt loco, ?_⟩
    rw [State.pushClaimed_claims hrole ((requestBusy_iff hcount ..).2 hfree), ← State.hostCb_master hrole]
    exact State.pushFrame_pushes htx hlen 0 fun t => { t with slots := markBusy t.slots t.localSlot loco }
  case refused =>
    rw [State.pushClaimed_refused hrole (requestBusy_of_held hcount ht hother hheld), State.holder_eq hslots ht hheld,
      slotValue]
  case polled =>
    rw [State.pushClaimed_polled hrole, ← State.hostCb_polled hrole]
    exact State.pushFrame_pushes htx hlen 0 id

end Sys2Proof.Machine
end

section
/-! PROOFS. Host commands: SETUP, the power state, the queries, the Slot Table, the pushes, and the commands that fail
(45_host_commands.md R305 to R325). -/

namespace Sys2Proof.Machine

/-! ### SETUP (45_host_commands.md R305, 70_reset_and_hazards.md R385) -/

theorem exec_setup_badArg {arg0 : BitVec 16} (h : arg0.toNat = 0 ∨ 31 < arg0.toNat) (arg1 : BitVec 8)
    (arg2 : BitVec 18) (s : State) : exec (.setup arg0 arg1 arg2) s = .next (s.rejected .eBadArg 0 .badArg) := by
  change execSetup arg0 arg1 arg2 s = _
  rw [execSetup, if_neg (by omega), State.failCmd_eBadArg]

/-- Settles O46: the address decides, and the configuration registers are their fields of the arguments. -/
theorem setupConfigures : Obligations.SetupConfigures := by
  refine fun arg0 arg1 arg2 k s => ⟨fun hlow hhigh hsteps => ?_, fun h => exec_setup_badArg h arg1 arg2 s⟩
  change execSetup arg0 arg1 arg2 s = _
  rw [execSetup, if_pos ⟨hlow, hhigh⟩, stepsOfCode_stepsNo hsteps, BitVec.ofNat_toNat, State.respond_eq]

/-! ### SET_POWER (45_host_commands.md R310) -/

section
variable {arg0 : BitVec 16} {p : Power} {s : State} (hset : s.setupDone = true)
include hset

theorem exec_setPower_badArg (h : powerOfCode arg0 = none) :
    exec (.setPower arg0) s = .next (s.rejected .eBadArg 0 .badArg) := by
  change execSetPower arg0 s = _
  rw [execSetPower, State.gated_setup hset, h, State.failCmd_eBadArg]

/-- As master the state is cached in the step that queues its broadcast. -/
theorem exec_setPower_broadcasts (htx : s.TxOk) (hrole : s.role = .master) (h : powerOfCode arg0 = some p) :
    s.Pushes (0xC0 :: powerBroadcast s.params.hdrMap p) (fun r => { s with txRing := r, power := p }.answered .ok 0)
      (exec (.setPower arg0) s) := by
  have hexec : exec (.setPower arg0) s =
      .next (s.pushFrame (powerBroadcast s.params.hdrMap p) 0 fun t => { t with power := p }) := by
    change execSetPower arg0 s = _
    rw [execSetPower, State.gated_setup hset, h]
    exact congrArg _ (if_pos hrole)
  rw [← State.hostCb_master hrole]
  exact pushes_of_pushFrame hexec htx (powerBroadcast_length ..)

theorem exec_setPower_device (hrole : s.role ≠ .master) (h : powerOfCode arg0 = some p) {f : List Byte}
    (hreq : powerRequest s.params.hdrMap p = some f) : exec (.setPower arg0) s = .next (s.pushFrame f 0 id) := by
  change execSetPower arg0 s = _
  rw [execSetPower, State.gated_setup hset, h]
  simp only [if_neg hrole, hreq]

theorem exec_setPower_unrequestable (hrole : s.role ≠ .master) (h : powerOfCode arg0 = some p)
    (hreq : powerRequest s.params.hdrMap p = none) :
    exec (.setPower arg0) s = .next (s.rejected .eBadArg 0 .badArg) := by
  change execSetPower arg0 s = _
  rw [execSetPower, State.gated_setup hset, h]
  simp only [if_neg hrole, hreq, State.failCmd_eBadArg]

end

/-- There is a request for every power state but short circuit. -/
theorem powerRequest_eq_some (t : HdrMap) {p : Power} (h : p ≠ .short) :
    ∃ f, powerRequest t p = some f ∧ f.length ≤ 9 := by
  cases p with
  | short => exact absurd rfl h
  | normal | estop | off | service => exact ⟨_, rfl, (FrameTemplate.build_length _ _).2⟩

/-- A device asks the master for the state and keeps its own. -/
theorem exec_setPower_requests {arg0 : BitVec 16} {p : Power} {s : State} (hset : s.setupDone = true) (htx : s.TxOk)
    (hrole : s.role ≠ .master) (h : powerOfCode arg0 = some p) (hshort : p ≠ .short) :
    ∃ f, powerRequest s.params.hdrMap p = some f ∧
      s.Pushes (mkCb .poll s.myAddr :: f) (fun r => { s with txRing := r }.answered .ok 0)
        (exec (.setPower arg0) s) := by
  obtain ⟨f, hreq, hlen⟩ := powerRequest_eq_some s.params.hdrMap hshort
  refine ⟨f, hreq, ?_⟩
  rw [← State.hostCb_polled hrole]
  exact pushes_of_pushFrame (exec_setPower_device hset hrole h hreq) htx hlen

/-- Settles O47: each code's power state, broadcast or requested. -/
theorem setPowerCommand : Obligations.SetPowerCommand := by
  refine fun s hset htx => ⟨fun arg0 h => exec_setPower_badArg hset (powerOfCode_eq_none h),
    fun hrole => ⟨?_, ?_, ?_, ?_, ?_⟩, fun hrole => ⟨fun x hx => ?device, ?short⟩, by decide, by decide⟩
  case device =>
    have hcode : ∀ x ∈ [((0 : BitVec 16), Power.normal), (1, .estop), (2, .off), (4, .service)],
        powerOfCode x.1 = some x.2 ∧ x.2 ≠ .short := by decide
    obtain ⟨hpower, hshort⟩ := hcode x hx
    exact exec_setPower_requests hset htx hrole hpower hshort
  case short => exact exec_setPower_unrequestable hset hrole (p := .short) rfl rfl
  all_goals exact exec_setPower_broadcasts hset htx hrole rfl

/-! ### The queries, RELEASE_SLOT and PEND_TIMEOUT (45_host_commands.md R311, R323, R325) -/

section
variable {arg0 : BitVec 16} {s : State} (hset : s.setupDone = true)
include hset

theorem exec_getPower : exec .getPower s = .next (s.answered .ok ((powerCode s.power).setWidth 8)) :=
  exec_of_gated hset rfl

theorem exec_getRole : exec .getRole s = .next (s.answered .ok ((roleCode s.role).setWidth 8)) :=
  exec_of_gated hset rfl

theorem exec_releaseSlot (h : arg0.toNat ≤ 30) :
    exec (.releaseSlot arg0) s = .next ({ s with slots := release s.slots arg0.toNat }.answered .ok 0) := by
  change execReleaseSlot arg0 s = _
  rw [execReleaseSlot, State.gated_setup hset, if_pos h, State.respond_eq]

theorem exec_releaseSlot_badArg (h : 30 < arg0.toNat) :
    exec (.releaseSlot arg0) s = .next (s.rejected .eBadArg 0 .badArg) := by
  change execReleaseSlot arg0 s = _
  rw [execReleaseSlot, State.gated_setup hset, if_neg (Nat.not_le.2 h), State.failCmd_eBadArg]

theorem exec_pendTimeout_info : exec (.pendTimeout 0) s = .next ({ s with pendInfo := false }.answered .ok 0) :=
  exec_of_gated hset rfl

theorem exec_pendTimeout_func : exec (.pendTimeout 1) s = .next ({ s with pendFunc := false }.answered .ok 0) :=
  exec_of_gated hset rfl

theorem exec_pendTimeout_badArg (h : 1 < arg0.toNat) :
    exec (.pendTimeout arg0) s = .next (s.rejected .eBadArg 0 .badArg) := by
  change execPendTimeout arg0 s = _
  rw [execPendTimeout, State.gated_setup hset, if_neg (ne_of_beyond h (by decide)),
    if_neg (ne_of_beyond h (by decide)), State.failCmd_eBadArg]

end

/-- Settles O48: one equation for each command and range of its argument. -/
theorem queriesReleaseAndTimeout : Obligations.QueriesReleaseAndTimeout := by
  refine fun arg0 s hset hcount => ⟨?power, ?role, fun h => ?release, exec_releaseSlot_badArg hset,
    exec_pendTimeout_info hset, exec_pendTimeout_func hset, exec_pendTimeout_badArg hset⟩
  case power =>
    rw [exec_getPower hset]
    cases s.power <;> rfl
  case role =>
    rw [exec_getRole hset]
    cases s.role <;> rfl
  case release =>
    exact ⟨_, ⟨(release_length ..).trans hcount, release_own .., fun t _ hne => release_other _ hne⟩,
      exec_releaseSlot hset h⟩

/-! ### LOCO_CLAIM and LOCO_BUSY_NOTE (45_host_commands.md R312, R314) -/

section
variable {arg0 : BitVec 16} {loco : LocoAddr} {s : State} (hset : s.setupDone = true)
include hset

theorem exec_locoClaim_badArg (h : locoArg arg0 = none) :
    exec (.locoClaim arg0) s = .next (s.rejected .eBadArg 0 .badArg) := by
  change execLocoClaim arg0 s = _
  rw [execLocoClaim, State.gated_setup hset, h, State.failCmd_eBadArg]

theorem exec_locoClaim_free (h : locoArg arg0 = some loco) (hfree : requestBusy s.slots s.localSlot loco = true) :
    exec (.locoClaim arg0) s = .next ({ s with slots := markBusy s.slots s.localSlot loco }.answered .ok
      (BitVec.ofNat 8 s.localSlot)) := by
  change execLocoClaim arg0 s = _
  rw [execLocoClaim, State.gated_setup hset, h]
  exact congrArg _ (if_pos hfree)

theorem exec_locoClaim_busy (h : locoArg arg0 = some loco) (hbusy : requestBusy s.slots s.localSlot loco = false) :
    exec (.locoClaim arg0) s = .next (s.rejected .eBusy (slotValue (holder s.slots loco)) .busy) := by
  change execLocoClaim arg0 s = _
  rw [execLocoClaim, State.gated_setup hset, h]
  exact congrArg _ (if_neg (Bool.eq_false_iff.1 hbusy))

theorem exec_locoBusyNote_badArg (h : locoArg arg0 = none) :
    exec (.locoBusyNote arg0) s = .next (s.rejected .eBadArg 0 .badArg) := by
  change execLocoBusyNote arg0 s = _
  rw [execLocoBusyNote, State.gated_setup hset, h, State.failCmd_eBadArg]

theorem exec_locoBusyNote_held (h : locoArg arg0 = some loco) {t : Nat} (hheld : holder s.slots loco = some t) :
    exec (.locoBusyNote arg0) s =
      .next (s.pushFrame (frameBusy s.params.hdrMap loco t) (BitVec.ofNat 8 t) id) := by
  change execLocoBusyNote arg0 s = _
  rw [execLocoBusyNote, State.gated_setup hset, h]
  simp only [hheld, slotValue]

theorem exec_locoBusyNote_free (h : locoArg arg0 = some loco) (hfree : holder s.slots loco = none) :
    exec (.locoBusyNote arg0) s = .next (s.answered .ok 0xFF) := by
  change execLocoBusyNote arg0 s = _
  rw [execLocoBusyNote, State.gated_setup hset, h]
  simp only [hfree, slotValue, State.respond_eq]

end

/-- Settles O49: what the Slot Table answers about the address decides. -/
theorem claimAndBusyNote : Obligations.ClaimAndBusyNote := by
  intro arg0 loco s hset _ hslots htx
  obtain ⟨hcount, -⟩ := id hslots
  refine ⟨fun h => ⟨exec_locoClaim_badArg hset (locoArg_eq_none h), exec_locoBusyNote_badArg hset (locoArg_eq_none h)⟩,
    fun _ => rfl, fun harg => ?_⟩
  have hloco := locoArg_eq_some harg
  refine ⟨fun hfree => ?claimed, fun t ht hother hheld => ?busy, fun t ht hheld => ?noticed, fun hnone => ?unheld⟩
  case claimed =>
    exact ⟨_, State.markBusy_slotSet hslots s.localSlot_lt loco,
      exec_locoClaim_free hset hloco ((requestBusy_iff hcount ..).2 hfree)⟩
  case busy =>
    rw [exec_locoClaim_busy hset hloco (requestBusy_of_held hcount ht hother hheld), State.holder_eq hslots ht hheld,
      slotValue]
  case noticed =>
    exact pushes_of_pushFrame (exec_locoBusyNote_held hset hloco (State.holder_eq hslots ht hheld)) htx
      (frameBusy_length ..)
  case unheld => exact exec_locoBusyNote_free hset hloco ((holder_none hcount).2 hnone)

/-! ### PUSH_DRIVE and PUSH_FUNC (45_host_commands.md R313, R315) -/

section
variable {arg0 : BitVec 16} {arg1 : BitVec 8} {arg2 : BitVec 18} {loco : LocoAddr} {s : State}
  (hset : s.setupDone = true)
include hset

theorem exec_pushDrive {k : Steps} (hloco : locoArg arg0 = some loco) (hk : stepsOfSelector s.stepsDef arg2 = some k) :
    exec (.pushDrive arg0 arg1 arg2) s = .next (s.pushClaimed loco (frameDrive s.params.hdrMap k loco arg1)) := by
  change execPushDrive arg0 arg1 arg2 s = _
  rw [execPushDrive, State.gated_setup hset, hloco, hk]

theorem exec_pushDrive_badArg (h : locoArg arg0 = none ∨ stepsOfSelector s.stepsDef arg2 = none) :
    exec (.pushDrive arg0 arg1 arg2) s = .next (s.rejected .eBadArg 0 .badArg) := by
  change execPushDrive arg0 arg1 arg2 s = _
  rw [execPushDrive, State.gated_setup hset]
  rcases h with h | h <;> rw [h]
  · rfl
  · cases locoArg arg0 <;> rfl

theorem exec_pushFunc {g : FuncGroup} (hloco : locoArg arg0 = some loco) (hg : groupOfSelector arg2 = some g) :
    exec (.pushFunc arg0 arg1 arg2) s =
      .next (s.pushClaimed loco (frameFunc s.params.hdrMap g loco (arg1 &&& groupMask g))) := by
  change execPushFunc arg0 arg1 arg2 s = _
  rw [execPushFunc, State.gated_setup hset, hloco, hg]

theorem exec_pushFunc_badArg (h : locoArg arg0 = none ∨ groupOfSelector arg2 = none) :
    exec (.pushFunc arg0 arg1 arg2) s = .next (s.rejected .eBadArg 0 .badArg) := by
  change execPushFunc arg0 arg1 arg2 s = _
  rw [execPushFunc, State.gated_setup hset]
  rcases h with h | h <;> rw [h]
  · rfl
  · cases locoArg arg0 <;> rfl

end

/-- Settles O50: both selectors and the address are read, or one of them is out of range. -/
theorem pushDriveAndFunction : Obligations.PushDriveAndFunction := by
  intro arg0 arg1 arg2 loco s hset _ hslots htx
  refine ⟨fun h => exec_pushDrive_badArg hset (h.imp locoArg_eq_none fun h => stepsOfSelector_eq_none h _),
    fun h => exec_pushFunc_badArg hset (h.imp locoArg_eq_none groupOfSelector_eq_none),
    fun harg => ⟨fun k hk => ?drive, fun x hx hsel => ?func⟩, fun k _ => ?driveBytes, fun _ => rfl⟩
  case drive =>
    have hsteps : stepsOfSelector s.stepsDef arg2 = some k := by
      rcases hk with hk | ⟨hk, rfl⟩
      · exact stepsOfSelector_stepsNo hk _
      · exact stepsOfSelector_default hk _
    exact claimsAndPushes_of_pushClaimed htx hslots (FrameTemplate.build_length _ _).2
      (exec_pushDrive hset (locoArg_eq_some harg) hsteps)
  case func =>
    have hgroups : ∀ x ∈ [(1, FuncGroup.g1, 0x1F#8), (2, .g2, 0x0F#8), (3, .g3, 0x0F#8), (4, .g4, 0xFF#8),
        (5, .g5, 0xFF#8)], groupOfSelector (BitVec.ofNat 18 x.1) = some x.2.1 ∧ groupMask x.2.1 = x.2.2 := by decide
    obtain ⟨hgroup, hmask⟩ := hgroups x hx
    rw [← hsel, BitVec.ofNat_toNat, BitVec.setWidth_eq] at hgroup
    rw [← hmask]
    exact claimsAndPushes_of_pushClaimed htx hslots (FrameTemplate.build_length _ _).2
      (exec_pushFunc hset (locoArg_eq_some harg) hgroup)
  case driveBytes => cases k <;> rfl

/-! ### GET_LOCO_INFO and GET_LOCO_FUNC (45_host_commands.md R316, R317; 60_exceptions.md R345) -/

section
variable {arg0 : BitVec 16} {loco : LocoAddr} {s : State} (hset : s.setupDone = true)
include hset

theorem exec_getLocoInfo_badArg (h : locoArg arg0 = none) :
    exec (.getLocoInfo arg0) s = .next (s.rejected .eBadArg 0 .badArg) := by
  change execGetLocoInfo arg0 s = _
  rw [execGetLocoInfo, State.gated_setup hset, h, State.failCmd_eBadArg]

theorem exec_getLocoInfo_outstanding (h : locoArg arg0 = some loco) (hpend : s.pendInfo = true) :
    exec (.getLocoInfo arg0) s = .next (s.rejected .ePending 0 .pending) := by
  change execGetLocoInfo arg0 s = _
  rw [execGetLocoInfo, State.gated_setup hset, h]
  exact congrArg _ (if_pos hpend)

theorem exec_getLocoInfo_asks (h : locoArg arg0 = some loco) (hpend : s.pendInfo = false) :
    exec (.getLocoInfo arg0) s = .next (s.pushFrame (frameInfoReq s.params.hdrMap loco) 0 fun t =>
      { t with pendInfo := true, pendInfoAddr := loco, pendInfoSeq := t.oppSeq }) := by
  change execGetLocoInfo arg0 s = _
  rw [execGetLocoInfo, State.gated_setup hset, h]
  exact congrArg _ (if_neg (Bool.eq_false_iff.1 hpend))

theorem exec_getLocoFunc_badArg (h : locoArg arg0 = none) :
    exec (.getLocoFunc arg0) s = .next (s.rejected .eBadArg 0 .badArg) := by
  change execGetLocoFunc arg0 s = _
  rw [execGetLocoFunc, State.gated_setup hset, h, State.failCmd_eBadArg]

theorem exec_getLocoFunc_outstanding (h : locoArg arg0 = some loco) (hpend : s.pendFunc = true) :
    exec (.getLocoFunc arg0) s = .next (s.rejected .ePending 0 .pending) := by
  change execGetLocoFunc arg0 s = _
  rw [execGetLocoFunc, State.gated_setup hset, h]
  exact congrArg _ (if_pos hpend)

theorem exec_getLocoFunc_asks (h : locoArg arg0 = some loco) (hpend : s.pendFunc = false) :
    exec (.getLocoFunc arg0) s = .next (s.pushFrame (frameFuncReq s.params.hdrMap loco) 0 fun t =>
      { t with pendFunc := true, pendFuncAddr := loco, pendFuncSeq := t.oppSeq }) := by
  change execGetLocoFunc arg0 s = _
  rw [execGetLocoFunc, State.gated_setup hset, h]
  exact congrArg _ (if_neg (Bool.eq_false_iff.1 hpend))

end

/-- Settles O51: each command looks at its own kind's request only. -/
theorem infoRequestsOneOutstanding : Obligations.InfoRequestsOneOutstanding := by
  intro arg0 loco s hset htx
  refine ⟨fun h => ⟨exec_getLocoInfo_badArg hset (locoArg_eq_none h), exec_getLocoFunc_badArg hset (locoArg_eq_none h)⟩,
    fun harg => ?_, rfl, rfl⟩
  have hloco := locoArg_eq_some harg
  refine ⟨exec_getLocoInfo_outstanding hset hloco, fun hpend => ?info, exec_getLocoFunc_outstanding hset hloco,
    fun hpend => ?func⟩
  case info => exact pushes_of_pushFrame (exec_getLocoInfo_asks hset hloco hpend) htx (FrameTemplate.build_length _ _).2
  case func => exact pushes_of_pushFrame (exec_getLocoFunc_asks hset hloco hpend) htx (FrameTemplate.build_length _ _).2

/-! ### The turnout, feedback and CV pushes (45_host_commands.md R318 to R322, R324) -/

section
variable {arg0 : BitVec 16} {arg1 : Byte} {s : State} (hset : s.setupDone = true)
include hset

theorem exec_pushTurnoutCmd_badArg (h : turnoutArg arg0 = none) :
    exec (.pushTurnoutCmd arg0 arg1) s = .next (s.rejected .eBadArg 0 .badArg) := by
  change execPushTurnoutCmd arg0 arg1 s = _
  rw [execPushTurnoutCmd, State.gated_setup hset, h, State.failCmd_eBadArg]

theorem exec_pushTurnoutCmd {t : BitVec 10} (h : turnoutArg arg0 = some t) :
    exec (.pushTurnoutCmd arg0 arg1) s =
      .next (s.pushFrame (frameTurnoutCmd s.params.hdrMap t (arg1.getLsbD 0) (arg1.getLsbD 1)) 0 id) := by
  change execPushTurnoutCmd arg0 arg1 s = _
  rw [execPushTurnoutCmd, State.gated_setup hset, h]

theorem exec_setCvReadValue_badArg (h : cvArg arg0 = none) :
    exec (.setCvReadValue arg0 arg1) s = .next (s.rejected .eBadArg 0 .badArg) := by
  change execSetCvReadValue arg0 arg1 s = _
  rw [execSetCvReadValue, State.gated_setup hset, h, State.failCmd_eBadArg]

theorem exec_setCvReadValue {cv : Byte} (h : cvArg arg0 = some cv) :
    exec (.setCvReadValue arg0 arg1) s =
      .next (s.pushFrame (frameCvResult s.params.hdrMap cv arg1) 0 fun t => t.cacheCv cv arg1) := by
  change execSetCvReadValue arg0 arg1 s = _
  rw [execSetCvReadValue, State.gated_setup hset, h]

end

/-- `D1` of a turnout command is its fields side by side (30_encoding.md R113). -/
theorem turnoutD1_eq_append (t : BitVec 10) (pos act : Bool) :
    turnoutD1 t pos act = 0b1000#4 ++ BitVec.ofBool act ++ t.extractLsb' 0 2 ++ BitVec.ofBool pos := by
  rw [turnoutD1]
  generalize t.extractLsb' 0 2 = low
  revert low pos act
  decide

/-- Settles O52: each command pushes its frame, if its argument is in range. -/
theorem turnoutFeedbackCvPushes : Obligations.TurnoutFeedbackCvPushes := by
  intro arg0 arg1 cv t s hset htx
  refine ⟨pushes_of_template hset htx _ _ 0 id rfl, pushes_of_template hset htx _ _ 0 id rfl,
    fun h => exec_pushTurnoutCmd_badArg hset (turnoutArg_eq_none h), fun harg => ?turnout,
    fun h => exec_setCvReadValue_badArg hset (cvArg_eq_none h), fun harg => ?cvValue, fun _ _ => rfl,
    fun pos act => ?turnoutBytes, rfl⟩
  case turnout =>
    exact pushes_of_pushFrame (exec_pushTurnoutCmd hset (turnoutArg_eq_some harg)) htx
      (FrameTemplate.build_length _ _).2
  case cvValue =>
    exact pushes_of_pushFrame (exec_setCvReadValue hset (cvArg_eq_some harg)) htx (FrameTemplate.build_length _ _).2
  case turnoutBytes =>
    rw [← turnoutD1_eq_append]
    rfl

/-- Settles O53: each command pushes its frame and raises its condition. -/
theorem cvNackPushes : Obligations.CvNackPushes := fun _ hset htx =>
  ⟨pushes_of_template hset htx _ _ 0 (·.raise .cvFail) rfl, pushes_of_template hset htx _ _ 0 (·.raise .cvFailSc) rfl,
    by decide, by decide⟩

/-! ### Commands that fail (45_host_commands.md R306, 60_exceptions.md R341) -/

theorem exec_hostReserved (op : BitVec 5) (s : State) :
    exec (.hostReserved op) s = .next (s.rejected .eBadArg 0 .badArg) := rfl

theorem decodeHost_ne_reserved {c : HostCmd} (hop : c.op.toNat ≤ 18) (op : BitVec 5) :
    decodeHost c ≠ .hostReserved op := by
  have hrow : decodeHost c ∈ (List.range 19).map fun k =>
      decodeHost { op := BitVec.ofNat 5 k, arg0 := c.arg0, arg1 := c.arg1, arg2 := c.arg2 } :=
    List.mem_map.2 ⟨c.op.toNat, List.mem_range.2 (by omega), by rw [BitVec.ofNat_toNat, BitVec.setWidth_eq]⟩
  rw [decode_hostCodes] at hrow
  intro heq
  simp [heq] at hrow

theorem decodeHost_poll {c : HostCmd} (h : c.op = 1) : decodeHost c = .poll := by
  rw [decodeHost, h]
  rfl

/-- Before SETUP every code but SETUP's own and the reserved ones fails. -/
theorem exec_host_unset {c : HostCmd} {s : State} (hop : c.op.toNat ≤ 18) (h0 : c.op ≠ 0) (hset : s.setupDone = false) :
    exec (decodeHost c) s = .next (s.rejected .eNotSetup 0 .notSetup) := by
  by_cases h1 : c.op = 1
  · rw [decodeHost_poll h1, exec_poll_unset hset]
  · obtain ⟨k, hk⟩ := exec_isGated (decodeHost_isPlainHostRow h0 h1) (decodeHost_ne_reserved hop) s
    rw [hk, State.gated_unset hset]

/-- How a host command ends: it answers `OK`, or with a status and its condition on a state otherwise unchanged. -/
def State.Concludes (s t : State) : Prop :=
  (∃ v, t.out.cmd = some (.ok, v)) ∨ ∃ st v e, st.condition = some e ∧ t = s.rejected st v e

theorem State.respond_concludes (s t : State) (v : Byte) : s.Concludes (t.respond .ok v) := .inl ⟨v, rfl⟩

theorem State.failCmd_concludes (s : State) (st : Status) (v : Byte) : s.Concludes (s.failCmd st v) := by
  cases st with
  | ok => exact s.respond_concludes s v
  | eTxFull | ePending | eBusy | eBadArg | eNotSetup => exact .inr ⟨_, v, _, rfl, rfl⟩

theorem State.gated_concludes {s k : State} (h : s.Concludes k) : s.Concludes (s.gated k) := by
  unfold State.gated
  split
  · exact s.failCmd_concludes _ _
  · exact h

theorem State.pushFrame_concludes (s : State) (frame : List Byte) (v : Byte) (k : State → State) :
    s.Concludes (s.pushFrame frame v k) := by
  rcases s.pushFrame_cases frame v k with ⟨-, h⟩ | ⟨-, r, -, h⟩ <;> rw [h]
  · exact s.failCmd_concludes .eTxFull 0
  · exact s.respond_concludes _ v

theorem State.pushClaimed_concludes (s : State) (loco : LocoAddr) (frame : List Byte) :
    s.Concludes (s.pushClaimed loco frame) := by
  unfold State.pushClaimed
  split
  · split
    · exact s.pushFrame_concludes ..
    · exact s.failCmd_concludes ..
  · exact s.pushFrame_concludes ..

/-- Behind the checks of R306 stands one answer or one push. -/
theorem hostRow_concludes {i : Instr} (hi : isPlainHostRow i = true) (s : State) :
    ∃ t, exec i s = .next t ∧ s.Concludes t := by
  cases i with
  | hostReserved => exact ⟨_, rfl, s.failCmd_concludes ..⟩
  | getPower | getRole => exact ⟨_, rfl, State.gated_concludes (s.respond_concludes ..)⟩
  | pushTurnoutStatus | pushFeedback | setCvNack | setCvNackSc =>
    exact ⟨_, rfl, State.gated_concludes (s.pushFrame_concludes ..)⟩
  | pushTurnoutCmd | setCvReadValue =>
    refine ⟨_, rfl, State.gated_concludes ?_⟩
    split
    · exact s.failCmd_concludes ..
    · exact s.pushFrame_concludes ..
  | pushDrive | pushFunc =>
    refine ⟨_, rfl, State.gated_concludes ?_⟩
    split
    · exact s.pushClaimed_concludes ..
    · exact s.failCmd_concludes ..
  | getLocoInfo | getLocoFunc =>
    refine ⟨_, rfl, State.gated_concludes ?_⟩
    split
    · exact s.failCmd_concludes ..
    · split
      · exact s.failCmd_concludes ..
      · exact s.pushFrame_concludes ..
  | locoClaim =>
    refine ⟨_, rfl, State.gated_concludes ?_⟩
    split
    · exact s.failCmd_concludes ..
    · split
      · exact s.respond_concludes ..
      · exact s.failCmd_concludes ..
  | locoBusyNote =>
    refine ⟨_, rfl, State.gated_concludes ?_⟩
    split
    · exact s.failCmd_concludes ..
    · split
      · exact s.pushFrame_concludes ..
      · exact s.respond_concludes ..
  | setPower =>
    refine ⟨_, rfl, State.gated_concludes ?_⟩
    split
    · exact s.failCmd_concludes ..
    · split
      · exact s.pushFrame_concludes ..
      · split
        · exact s.failCmd_concludes ..
        · exact s.pushFrame_concludes ..
  | releaseSlot =>
    refine ⟨_, rfl, State.gated_concludes ?_⟩
    split
    · exact s.respond_concludes ..
    · exact s.failCmd_concludes ..
  | pendTimeout =>
    refine ⟨_, rfl, State.gated_concludes ?_⟩
    split
    · exact s.respond_concludes ..
    · split
      · exact s.respond_concludes ..
      · exact s.failCmd_concludes ..
  | _ => cases hi

theorem execSetup_concludes (arg0 : BitVec 16) (arg1 : BitVec 8) (arg2 : BitVec 18) (s : State) :
    ∃ t, execSetup arg0 arg1 arg2 s = .next t ∧ s.Concludes t := by
  unfold execSetup
  split
  · exact ⟨_, rfl, s.respond_concludes ..⟩
  · exact ⟨_, rfl, s.failCmd_concludes ..⟩

/-- POLL answers last, and the limit on the conditions recorded leaves the answer alone. -/
theorem execPoll_concludes (s : State) : ∃ t, execPoll s = .next t ∧ s.Concludes t := by
  cases hset : s.setupDone with
  | false => exact ⟨_, exec_poll_unset hset, s.failCmd_concludes .eNotSetup 0⟩
  | true =>
    obtain ⟨u, hdrain⟩ := drain_next s
    exact ⟨_, execPoll_setup hset hdrain, .inl ⟨0, rfl⟩⟩

theorem host_concludes (c : HostCmd) (s : State) : ∃ t, exec (decodeHost c) s = .next t ∧ s.Concludes t := by
  by_cases h0 : c.op = 0
  · have hsetup : decodeHost c = .setup c.arg0 c.arg1 c.arg2 := by
      rw [decodeHost, h0]
      rfl
    rw [hsetup]
    exact execSetup_concludes ..
  · by_cases h1 : c.op = 1
    · rw [decodeHost_poll h1]
      exact execPoll_concludes s
    · exact hostRow_concludes (decodeHost_isPlainHostRow h0 h1) s

/-- Settles O54: the checks of R306 in their order, and how every command ends. -/
theorem failedCommandsChangeNothing : Obligations.FailedCommandsChangeNothing := by
  refine ⟨exec_hostReserved, fun c s hop => ?_, fun c s => exec_host_unset,
    fun c s t => holds_of_next (host_concludes c s)⟩
  rw [decodeHost_reserved c hop, exec_hostReserved]

end Sys2Proof.Machine
end

section
/-! PROOFS. Nothing halts: every operation and every step answers a next state (60_exceptions.md R352). -/

namespace Sys2Proof.Machine

/-- What every operation is bounded to report, it reports in a next state. -/
theorem exec_next (i : Instr) (s : State) : ∃ t, exec i s = .next t :=
  (exec_reports i s).imp fun _ ⟨hexec, _⟩ => hexec

/-- A step runs the operation of the next event, or rests. -/
theorem step_next (s : State) : ∃ t, step s = .next t := by
  cases hevent : nextEvent s.inputs with
  | none => exact ⟨s.rest, step_rest hevent⟩
  | some event =>
    obtain ⟨now, e, rest⟩ := event
    rw [step_event hevent]
    exact exec_next (decodePort e) (s.accept now e rest)

/-- Settles O60: no operation stops the CORE, and a step is one operation or a rest. -/
theorem nothingHalts : Obligations.NothingHalts := ⟨exec_next, step_next⟩

end Sys2Proof.Machine
end
